-- ==== Sys2Proof/Word.lean ====
section
/-!
DEFINITION. The words of the block: the widths of 00_scope.md R7, the three formats of 30_encoding.md
R55, and an input word, which is a word of one of the two formats an event or operation is read from.
-/

namespace Sys2Proof

/-- Format `RAW` (30_encoding.md R56): the operand of an encoder-signal event. -/
abbrev Raw := BitVec 32

/-- Format `CYC` (30_encoding.md R59): one clock cycle's inputs `{rst, tmr_expired, sig_valid, raw}`. -/
abbrev Cyc := BitVec 35

/-- Format `UOP` (30_encoding.md R61): the index that names an internal operation. -/
abbrev Uop := BitVec 4

/-- A phase sample, `raw[1:0]` (00_scope.md R7, `PHASE_WIDTH`). -/
abbrev Phase := BitVec 2

/-- A position on the ring (00_scope.md R7, `POS_WIDTH`). -/
abbrev Pos := BitVec 4

/-- A rendered mask (00_scope.md R7, `MASK_WIDTH`). -/
abbrev Mask := BitVec 16

/-- One input word: what one step reads. -/
inductive Input where
  /-- The ports at one rising edge of `clk`, format `CYC`. -/
  | cyc (v : Cyc)
  /-- An internal operation named by its `UOP` index. No port carries it (30_encoding.md R61); it stands
  for the operation run on its own (log entry 2). -/
  | uop (u : Uop)
  /-- Bits that are a word of neither format. No port can carry them; decoding refuses them (log entry 7). -/
  | stray (nbits w : Nat)
deriving DecidableEq, Repr

end Sys2Proof
end

