-- ==== Sys2Proof/Machine/Operands.lean ====
section
/-!
DEFINITION. Operand extraction: the two operands of a `RAW` word (30_encoding.md R56, R57) and the fields of a
`CYC` vector (R59).
-/

namespace Sys2Proof.Machine

/-- `button := raw[2]` (30_encoding.md R57); 1 = pressed (R63). -/
def button (raw : Raw) : Bool := raw.getLsbD 2

/-- `phase := raw[1:0]` (30_encoding.md R57). -/
def phase (raw : Raw) : Phase := raw.extractLsb' 0 2

/-- Port `rst`, bit 34 of the vector (30_encoding.md R59). -/
def cycRst (v : Cyc) : Bool := v.getLsbD 34

/-- Port `tmr_expired`, bit 33 of the vector (30_encoding.md R59). -/
def cycTmr (v : Cyc) : Bool := v.getLsbD 33

/-- Port `sig_valid`, bit 32 of the vector (30_encoding.md R59). -/
def cycSig (v : Cyc) : Bool := v.getLsbD 32

/-- Port `raw`, bits 31:0 of the vector (30_encoding.md R59). -/
def cycRaw (v : Cyc) : Raw := v.extractLsb' 0 32

/-- The `CYC` vector `{rst, tmr_expired, sig_valid, raw}` of the given port values (30_encoding.md R59). -/
def cycVector (rst tmr sig : Bool) (raw : Raw) : Cyc :=
  (if rst then 0x400000000#35 else 0#35) ||| (if tmr then 0x200000000#35 else 0#35) |||
    (if sig then 0x100000000#35 else 0#35) ||| raw.setWidth 35

end Sys2Proof.Machine
end

