-- ==== Sys2Proof/Syntax.lean ====
section
/-!
DEFINITION. The closed operation set of 00_scope.md R3: the nine boundary events of 30_encoding.md R60 and the
twelve internal operations of R61, one constructor per row of spec/opcode_table.json.
-/

namespace Sys2Proof

/-- An event or an operation. The operand of a `SIG` event is the whole `RAW` word, as 43_dispatch.md R116 to
R120 and R124 give it; WellFormed says which words each row admits. -/
inductive Instr where
  /-- `RST` (43_dispatch.md R123). -/
  | rst
  /-- `NOP` (43_dispatch.md R122). -/
  | nop
  /-- `TMR` (43_dispatch.md R121). -/
  | tmr
  /-- `SIG.P00` (43_dispatch.md R116): `raw[2:0]` = 000. -/
  | sigP00 (raw : Raw)
  /-- `SIG.P01` (43_dispatch.md R117): `raw[2:0]` = 001. -/
  | sigP01 (raw : Raw)
  /-- `SIG.P10` (43_dispatch.md R118): `raw[2:0]` = 010. -/
  | sigP10 (raw : Raw)
  /-- `SIG.P11` (43_dispatch.md R119): `raw[2:0]` = 011. -/
  | sigP11 (raw : Raw)
  /-- `SIG.BTN` (43_dispatch.md R120): `raw[2]` = 1. -/
  | sigBtn (raw : Raw)
  /-- `SIGTMR` (43_dispatch.md R124): any `raw`. -/
  | sigTmr (raw : Raw)
  /-- `QD.STEP00` (40_quadrature_decoder.md R79). -/
  | qdStep00
  /-- `QD.STEP01` (40_quadrature_decoder.md R76). -/
  | qdStep01
  /-- `QD.STEP10` (40_quadrature_decoder.md R77). -/
  | qdStep10
  /-- `QD.STEP11` (40_quadrature_decoder.md R78). -/
  | qdStep11
  /-- `BG.TRYACCEPT` (41_button_gate.md R90), with its operand `pressed`. -/
  | bgTryAccept (pressed : Bool)
  /-- `BG.REOPEN` (41_button_gate.md R91). -/
  | bgReopen
  /-- `LR.RENDER` (42_led_ring.md R105). -/
  | lrRender
  /-- `LR.MOVER` (42_led_ring.md R100). -/
  | lrMover
  /-- `LR.MOVEL` (42_led_ring.md R101). -/
  | lrMovel
  /-- `LR.ENABLE` (42_led_ring.md R102). -/
  | lrEnable
  /-- `LR.DISABLE` (42_led_ring.md R103). -/
  | lrDisable
  /-- `LR.TOGGLE` (42_led_ring.md R104). -/
  | lrToggle
deriving DecidableEq, Repr

/-- The mnemonic of the instruction's row in spec/opcode_table.json. -/
def Instr.mnemonic : Instr → String
  | .rst => "RST"
  | .nop => "NOP"
  | .tmr => "TMR"
  | .sigP00 _ => "SIG.P00"
  | .sigP01 _ => "SIG.P01"
  | .sigP10 _ => "SIG.P10"
  | .sigP11 _ => "SIG.P11"
  | .sigBtn _ => "SIG.BTN"
  | .sigTmr _ => "SIGTMR"
  | .qdStep00 => "QD.STEP00"
  | .qdStep01 => "QD.STEP01"
  | .qdStep10 => "QD.STEP10"
  | .qdStep11 => "QD.STEP11"
  | .bgTryAccept _ => "BG.TRYACCEPT"
  | .bgReopen => "BG.REOPEN"
  | .lrRender => "LR.RENDER"
  | .lrMover => "LR.MOVER"
  | .lrMovel => "LR.MOVEL"
  | .lrEnable => "LR.ENABLE"
  | .lrDisable => "LR.DISABLE"
  | .lrToggle => "LR.TOGGLE"

/-- The `RAW` operand, for the events that carry one. -/
def Instr.raw? : Instr → Option Raw
  | .sigP00 raw => some raw
  | .sigP01 raw => some raw
  | .sigP10 raw => some raw
  | .sigP11 raw => some raw
  | .sigBtn raw => some raw
  | .sigTmr raw => some raw
  | .rst => none
  | .nop => none
  | .tmr => none
  | .qdStep00 => none
  | .qdStep01 => none
  | .qdStep10 => none
  | .qdStep11 => none
  | .bgTryAccept _ => none
  | .bgReopen => none
  | .lrRender => none
  | .lrMover => none
  | .lrMovel => none
  | .lrEnable => none
  | .lrDisable => none
  | .lrToggle => none

end Sys2Proof
end

