-- ==== Sys2Proof/WellFormed.lean ====
section
/-!
DEFINITION. Well-formed instructions: a `SIG` event's operand has the low bits that its row of 30_encoding.md R60
fixes. Every other instruction's operands are well formed by their types.
-/

namespace Sys2Proof

/-- Whether the operand `raw` is one that a `SIG.Ppp` row with phase `pp` admits: button up, phase `pp`. -/
def isPhaseSample (raw : Raw) (pp : Phase) : Bool := !Machine.button raw && Machine.phase raw == pp

/-- Whether the instruction has operands that its row admits (30_encoding.md R60, 43_dispatch.md R116 to R120). -/
def wellFormed : Instr → Bool
  | .sigP00 raw => isPhaseSample raw 0b00#2
  | .sigP01 raw => isPhaseSample raw 0b01#2
  | .sigP10 raw => isPhaseSample raw 0b10#2
  | .sigP11 raw => isPhaseSample raw 0b11#2
  | .sigBtn raw => Machine.button raw
  | .sigTmr _ => true
  | .rst => true
  | .nop => true
  | .tmr => true
  | .qdStep00 => true
  | .qdStep01 => true
  | .qdStep10 => true
  | .qdStep11 => true
  | .bgTryAccept _ => true
  | .bgReopen => true
  | .lrRender => true
  | .lrMover => true
  | .lrMovel => true
  | .lrEnable => true
  | .lrDisable => true
  | .lrToggle => true

end Sys2Proof
end

