-- ==== Sys2Proof/Decode.lean ====
section
/-!
DEFINITION. The decoder, total on input words and rejecting by name, the encoder written from the same tables of
30_encoding.md (R60, R61, R68), and the rows of R60 as data.
-/

namespace Sys2Proof

/-- Why an input word is no instruction. -/
inductive DecodeError where
  /-- A `UOP` code that names no operation: 0x7, 0xE or 0xF (30_encoding.md R66). -/
  | reservedUop (u : Uop)
  /-- Bits that are a word of neither format. -/
  | strayWord (nbits w : Nat)
deriving DecidableEq, Repr

/-- Decoding of `CYC` (30_encoding.md R60): every vector is one event. -/
def decodeCyc (v : Cyc) : Instr :=
  if Machine.cycRst v then .rst
  else
    match Machine.cycTmr v, Machine.cycSig v with
    | false, false => .nop
    | true, false => .tmr
    | true, true => .sigTmr (Machine.cycRaw v)
    | false, true =>
      if Machine.button (Machine.cycRaw v) then .sigBtn (Machine.cycRaw v)
      else
        match (Machine.cycRaw v).getLsbD 1, (Machine.cycRaw v).getLsbD 0 with
        | false, false => .sigP00 (Machine.cycRaw v)
        | false, true => .sigP01 (Machine.cycRaw v)
        | true, false => .sigP10 (Machine.cycRaw v)
        | true, true => .sigP11 (Machine.cycRaw v)

/-- Decoding of `UOP` (30_encoding.md R61); the three reserved codes are refused (R66). -/
def decodeUop (u : Uop) : Except DecodeError Instr :=
  match u.getLsbD 3, u.getLsbD 2, u.getLsbD 1, u.getLsbD 0 with
  | false, false, false, false => .ok .qdStep00
  | false, false, false, true => .ok .qdStep01
  | false, false, true, false => .ok .qdStep10
  | false, false, true, true => .ok .qdStep11
  | false, true, false, p => .ok (.bgTryAccept p)
  | false, true, true, false => .ok .bgReopen
  | false, true, true, true => .error (.reservedUop u)
  | true, false, false, false => .ok .lrRender
  | true, false, false, true => .ok .lrMover
  | true, false, true, false => .ok .lrMovel
  | true, false, true, true => .ok .lrEnable
  | true, true, false, false => .ok .lrDisable
  | true, true, false, true => .ok .lrToggle
  | true, true, true, _ => .error (.reservedUop u)

/-- The instruction an input word stands for. -/
def decode : Input → Except DecodeError Instr
  | .cyc v => .ok (decodeCyc v)
  | .uop u => decodeUop u
  | .stray nbits w => .error (.strayWord nbits w)

/-- The `CYC` vector of an encoder-signal event: `0x100000000 + raw` (30_encoding.md R68); the two have no bit in common,
so the sum is the bitwise or. -/
def sigVector (raw : Raw) : Cyc := 0x100000000#35 ||| raw.setWidth 35

/-- The `CYC` vector of a coincidence: `0x300000000 + raw` (30_encoding.md R68). -/
def sigTmrVector (raw : Raw) : Cyc := 0x300000000#35 ||| raw.setWidth 35

/-- The word of an instruction: for an event with don't-care bits, the canonical vector of 30_encoding.md R68. -/
def encode : Instr → Input
  | .rst => .cyc 0x400000000#35
  | .nop => .cyc 0x000000000#35
  | .tmr => .cyc 0x200000000#35
  | .sigP00 raw => .cyc (sigVector raw)
  | .sigP01 raw => .cyc (sigVector raw)
  | .sigP10 raw => .cyc (sigVector raw)
  | .sigP11 raw => .cyc (sigVector raw)
  | .sigBtn raw => .cyc (sigVector raw)
  | .sigTmr raw => .cyc (sigTmrVector raw)
  | .qdStep00 => .uop 0b0000#4
  | .qdStep01 => .uop 0b0001#4
  | .qdStep10 => .uop 0b0010#4
  | .qdStep11 => .uop 0b0011#4
  | .bgTryAccept pressed => .uop (0b010#3 ++ BitVec.ofBool pressed)
  | .bgReopen => .uop 0b0110#4
  | .lrRender => .uop 0b1000#4
  | .lrMover => .uop 0b1001#4
  | .lrMovel => .uop 0b1010#4
  | .lrEnable => .uop 0b1011#4
  | .lrDisable => .uop 0b1100#4
  | .lrToggle => .uop 0b1101#4

/-- A row of the `CYC` table of 30_encoding.md R60. -/
structure CycRow where
  /-- The row's mnemonic. -/
  mnemonic : String
  /-- Column `match`. -/
  bits : Cyc
  /-- Column `mask`. -/
  mask : Cyc
deriving DecidableEq, Repr

/-- A vector `v` matches a row when `v & mask == match` (30_encoding.md R60). -/
def CycRow.matchesVector (row : CycRow) (v : Cyc) : Bool := v &&& row.mask == row.bits

/-- The nine rows of 30_encoding.md R60, columns `match` and `mask`, in the table's order. The decoder is written
from the other columns; that the two agree is a statement. -/
def cycRows : List CycRow :=
  [ ⟨"RST", 0x400000000#35, 0x400000000#35⟩,
    ⟨"NOP", 0x000000000#35, 0x700000000#35⟩,
    ⟨"TMR", 0x200000000#35, 0x700000000#35⟩,
    ⟨"SIG.P00", 0x100000000#35, 0x700000007#35⟩,
    ⟨"SIG.P01", 0x100000001#35, 0x700000007#35⟩,
    ⟨"SIG.P10", 0x100000002#35, 0x700000007#35⟩,
    ⟨"SIG.P11", 0x100000003#35, 0x700000007#35⟩,
    ⟨"SIG.BTN", 0x100000004#35, 0x700000004#35⟩,
    ⟨"SIGTMR", 0x300000000#35, 0x700000000#35⟩ ]

/-- The input word made of the bits `w` of a row that has `nbits` bits in whole bytes: up to one byte is a `UOP`
word, more is a `CYC` word (30_encoding.md R55 has no other width to tell apart). Bits set above the
format's width make it a word of neither format (log entry 7). -/
def inputOfBits (nbits w : Nat) : Input :=
  if nbits ≤ 8 then
    if w < 2 ^ 4 then .uop (BitVec.ofNat 4 w) else .stray nbits w
  else
    if w < 2 ^ 35 then .cyc (BitVec.ofNat 35 w) else .stray nbits w

/-- The instruction the decoder reads from the bits `w`, numbered as spec/opcode_table.json numbers them. -/
def decodeTableWord (nbits w : Nat) : Option Instr := (decode (inputOfBits nbits w)).toOption

end Sys2Proof
end

