-- ==== Sys2Proof/Config.lean ====
section
/-!
DEFINITION. The parameters of 00_scope.md R8: the free value `COINCIDENT_ORDER`, and the decided
`PUBLISH_ON_NOOP_MOVE`. `DEBOUNCE_TICKS` is an argument of the reference timer (Machine/Collaborators.lean):
the block never reads it.
-/

namespace Sys2Proof

/-- The order in which the two handlers run when both notifications arrive in one cycle
(43_dispatch.md R124). -/
inductive CoincidentOrder where
  /-- `OnSignal`, then `OnTimer`. -/
  | sigFirst
  /-- `OnTimer`, then `OnSignal`. -/
  | tmrFirst
deriving DecidableEq, Repr, Inhabited

/-- `COINCIDENT_ORDER` (43_dispatch.md R124, 92_eei_decisions.md D13): OPEN. A free value: the order of the
`n`-th coincidence. It has no body to prove anything of, so a claim about `SIGTMR` is true for either
order at every coincidence (log entry 3; safe). -/
opaque Config.coincidentOrder : Nat → CoincidentOrder

/-- `PUBLISH_ON_NOOP_MOVE` (00_scope.md R8, 43_dispatch.md R127): the spec decides `false`. The functions of the
event layer take the parameter as an argument, so that both readings can be spoken of (log entry 4). -/
def Config.publishOnNoopMove : Bool := false

end Sys2Proof
end

