-- ==== Sys2Proof/Machine/State.lean ====
section
/-!
DEFINITION. The state of the block: the four registers of 10_state.md R20, the two output registers of R25, and the
model's own fields (the input words to come, the last operation's result, the index of the free order).
-/

namespace Sys2Proof.Machine

/-- `EncState` (00_scope.md R11, 10_state.md R21): seven values. The eighth 3-bit code is not a state
(30_encoding.md R66; log entry 5). -/
inductive EncState where
  | idle
  | cwHalf1
  | cwHalf2
  | cwHalf3
  | ccwHalf1
  | ccwHalf2
  | ccwHalf3
deriving DecidableEq, Repr

/-- `Direction` (00_scope.md R11). -/
inductive Direction where
  | clockwise
  | counterClockwise
deriving DecidableEq, Repr

/-- The event layer's `State` (00_scope.md R11): the four registers of 10_state.md R20. -/
structure Regs where
  /-- `enc_state` (10_state.md R21). -/
  encState : EncState
  /-- `gate_open` (10_state.md R22): true = open, false = armed. -/
  gateOpen : Bool
  /-- `led_num` (10_state.md R23): the cursor position. -/
  ledNum : Pos
  /-- `led_enable` (10_state.md R24): true = the ring is on. -/
  ledEnable : Bool
deriving DecidableEq, Repr

/-- `Effect` (00_scope.md R11): the two outbound calls of one event. -/
structure Effect where
  /-- The mask of the `publish` call, if the event makes one. -/
  publish : Option Mask
  /-- Whether the event makes the `armDebounce` call. -/
  arm : Bool
deriving DecidableEq, Repr

/-- `NoEffect` (00_scope.md R11). -/
def noEffect : Effect := { publish := none, arm := false }

/-- What an internal operation returns: the transient values of 10_state.md R28. -/
inductive Result where
  /-- The operation returns nothing. -/
  | none
  /-- The optional direction of a `QD.STEP`. -/
  | dir (d : Option Direction)
  /-- The `accepted` bit of `BG.TRYACCEPT`. -/
  | accepted (a : Bool)
  /-- The `moved` bit of `LR.MOVER` and `LR.MOVEL`. -/
  | moved (m : Bool)
  /-- The mask of `LR.RENDER`. -/
  | mask (m : Mask)
deriving DecidableEq, Repr

/-- The state of the machine. -/
structure State where
  /-- The four architectural registers (10_state.md R20). -/
  regs : Regs
  /-- Output register `publish` (10_state.md R25). -/
  publish : Bool
  /-- Output register `arm_debounce` (10_state.md R25). -/
  armDebounce : Bool
  /-- MODEL'S OWN: the input words the environment will present, one a step, next first. The block holds no
  queue (10_state.md R31); this is the free input of the host interface (log entry 1). -/
  inputs : List Input
  /-- MODEL'S OWN: what the internal operation that ran last on its own returned (log entry 2). -/
  result : Result
  /-- MODEL'S OWN: the number of coincidences so far, at which the free order is read (log entry 3). -/
  coincidences : Nat
deriving DecidableEq, Repr

/-- The faults of the machine: none. "The block raises no synchronous exception" (60_exceptions.md R135), and an
implementation must not fail on any input (R136), so the type has no constructor. -/
inductive Fault where
deriving DecidableEq, Repr

/-- Why a step gives no next state. -/
inductive Refusal where
  /-- Raised by `exec` for an instruction that has no meaning yet. Safe. No arm raises it. -/
  | notModelled (mnemonic : String)
  /-- Raised by `step` for a `UOP` code that names no operation (30_encoding.md R66: 0x7, 0xE, 0xF;
  93_implementation_defined.md U11 says to refuse). No port carries it. Safe. -/
  | reservedUop (u : Uop)
  /-- Raised by `step` for bits that are a word of neither format. No port can carry them. Safe. -/
  | strayWord (nbits w : Nat)
deriving DecidableEq, Repr

/-- `ResetState` (00_scope.md R12, 10_state.md R32): "`EncoderFsmState = Idle`, `DebounceGate = open`,
`LedRingState = (position:0, enabled:true)`". -/
def Regs.reset : Regs := { encState := .idle, gateOpen := true, ledNum := 0#4, ledEnable := true }

/-- The machine right after reset (10_state.md R32): the registers at `ResetState`, both output registers 0. The
model's own fields start empty (DESIGN CHOICE, log entries 1, 2, 3). -/
def State.reset : State :=
  { regs := Regs.reset, publish := false, armDebounce := false, inputs := [], result := .none, coincidences := 0 }

end Sys2Proof.Machine
end

