-- ==== Sys2Proof/Machine/Flags.lean ====
section
/-!
DEFINITION. The conditions of the block. It has no carry, zero, sign or overflow flag (10_state.md R28, 42_led_ring.md
R106); what it computes are the transient bits `accepted` and `moved` and the condition for a publish.
-/

namespace Sys2Proof.Machine

/-- `accepted := pressed & gate_open` (41_button_gate.md R90). -/
def acceptsPress (gateOpen pressed : Bool) : Bool := pressed && gateOpen

/-- `moved := led_enable` (42_led_ring.md R100, R101): a move changes the position exactly when the ring is on. -/
def movesCursor (ledEnable : Bool) : Bool := ledEnable

/-- Whether the phase branch of `OnSignal` publishes: `moved = 1 or (PUBLISH_ON_NOOP_MOVE and dir != None)`
(43_dispatch.md R115, R127), with the parameter as an argument. -/
def publishesMove (publishOnNoopMove moved : Bool) (dir : Option Direction) : Bool :=
  moved || (publishOnNoopMove && dir.isSome)

end Sys2Proof.Machine
end

