-- ==== Sys2Proof/Machine/Ops.lean ====
section
/-!
DEFINITION. The shared operations: how an event's outcome enters the registers at a clock edge, how an internal
operation run on its own enters them, and what the output ports show.

The block takes no exception and returns from none (60_exceptions.md R135, R141, R142): taking an event saves no
state and changes no mode, so there is no such shared operation.
-/

namespace Sys2Proof.Machine

/-- `LR_RENDER(led_num, led_enable)` (42_led_ring.md R105): `1 << led_num` if the ring is on, else 0. -/
def lrRenderMask (ledNum : Pos) (ledEnable : Bool) : Mask :=
  if ledEnable then 1#16 <<< ledNum.toNat else 0#16

/-- The rendering of four registers. -/
def renderRegs (r : Regs) : Mask := lrRenderMask r.ledNum r.ledEnable

/-- The output port `led_mask` (10_state.md R26): at all times the rendering of the current registers. -/
def ledMask (s : State) : Mask := renderRegs s.regs

/-- One rising edge of `clk` (43_dispatch.md R125): the four registers take the event's outcome, the output registers
its effect. -/
def clockEdge (s : State) (outcome : Regs × Effect) : State :=
  { s with regs := outcome.1, publish := outcome.2.publish.isSome, armDebounce := outcome.2.arm }

/-- An internal operation run on its own: it writes what its column of the write matrix says (10_state.md R34) and
returns a result. It is no clock edge, so the output registers keep their values (log entry 2). -/
def returnFrom (s : State) (r : Regs) (res : Result) : State :=
  { s with regs := r, result := res }

/-- An outbound call of the block (00_scope.md R10). -/
inductive Call where
  /-- `armDebounce`; it carries no data (43_dispatch.md R128). -/
  | armDebounce
  /-- `publish(bitmask)`. -/
  | publish (m : Mask)
deriving DecidableEq, Repr

/-- The outbound calls of one event as a sequence: arm before publish (20_memory.md R51). -/
def callsOf (e : Effect) : List Call :=
  (if e.arm then [Call.armDebounce] else []) ++ (e.publish.map Call.publish).toList

/-- The input word a step reads: the next word presented, or, when nothing is presented, a cycle with all inputs 0,
which is the event `NOP` (43_dispatch.md R122; log entry 1). -/
def presented (s : State) : Input := s.inputs.headD (.cyc 0#35)

/-- The state once the word has been read: the environment moves on to its next word. -/
def consume (s : State) : State := { s with inputs := s.inputs.tail }

/-- The refusal of a word that does not decode (30_encoding.md R66). -/
def refusalOf : DecodeError → Refusal
  | .reservedUop u => .reservedUop u
  | .strayWord nbits w => .strayWord nbits w

/-- Present `i` as the next input word, in place of the word that stood there. -/
def present (s : State) (i : Input) : State := { s with inputs := i :: s.inputs.tail }

end Sys2Proof.Machine
end

