-- ==== Sys2Proof/Machine/ButtonGate.lean ====
section
/-!
DEFINITION. The button gate BG (41_button_gate.md): its two operations.
-/

namespace Sys2Proof.Machine

/-- `BG_TRYACCEPT` (41_button_gate.md R90): the registers after it and the bit `accepted`. -/
def bgTryAccept (r : Regs) (pressed : Bool) : Regs × Bool :=
  ( if acceptsPress r.gateOpen pressed then { r with gateOpen := false } else r,
    acceptsPress r.gateOpen pressed )

/-- `BG_REOPEN` (41_button_gate.md R91). -/
def bgReopen (r : Regs) : Regs := { r with gateOpen := true }

/-- `BG.TRYACCEPT` (41_button_gate.md R90). -/
def execBgTryAccept (pressed : Bool) (s : State) : Host.Outcome State Fault Refusal :=
  .next (returnFrom s (bgTryAccept s.regs pressed).1 (.accepted (bgTryAccept s.regs pressed).2))

/-- `BG.REOPEN` (41_button_gate.md R91). -/
def execBgReopen (s : State) : Host.Outcome State Fault Refusal :=
  .next (returnFrom s (bgReopen s.regs) .none)

/-- A sequence of `tryAccept` calls with no `reopen` between them: the registers after it and the answers, in order
(41_button_gate.md R94). -/
def gateRun (r : Regs) : List Bool → Regs × List Bool
  | [] => (r, [])
  | p :: ps =>
    ((gateRun (bgTryAccept r p).1 ps).1, (bgTryAccept r p).2 :: (gateRun (bgTryAccept r p).1 ps).2)

end Sys2Proof.Machine
end

