-- ==== Sys2Proof/Machine/LedRing.lean ====
section
/-!
DEFINITION. The LED ring LR and its renderer (42_led_ring.md): the six operations.
-/

namespace Sys2Proof.Machine

/-- `LR_MOVER` (42_led_ring.md R100): down in position number, modulo 16, if the ring is on; and the bit `moved`. -/
def lrMover (r : Regs) : Regs × Bool :=
  (if r.ledEnable then { r with ledNum := r.ledNum - 1#4 } else r, movesCursor r.ledEnable)

/-- `LR_MOVEL` (42_led_ring.md R101): up in position number, modulo 16, if the ring is on; and the bit `moved`. -/
def lrMovel (r : Regs) : Regs × Bool :=
  (if r.ledEnable then { r with ledNum := r.ledNum + 1#4 } else r, movesCursor r.ledEnable)

/-- `LR_ENABLE` (42_led_ring.md R102). -/
def lrEnable (r : Regs) : Regs := { r with ledEnable := true }

/-- `LR_DISABLE` (42_led_ring.md R103). -/
def lrDisable (r : Regs) : Regs := { r with ledEnable := false }

/-- `LR_TOGGLE` (42_led_ring.md R104). -/
def lrToggle (r : Regs) : Regs := { r with ledEnable := !r.ledEnable }

/-- The move a direction asks for (43_dispatch.md R115): clockwise is `LR_MOVER`, counter-clockwise `LR_MOVEL`; no
direction moves nothing. -/
def moveFor (dir : Option Direction) (r : Regs) : Regs × Bool :=
  match dir with
  | some .clockwise => lrMover r
  | some .counterClockwise => lrMovel r
  | none => (r, false)

/-- `LR.RENDER` (42_led_ring.md R105): a pure function of the registers; its result is the mask. -/
def execLrRender (s : State) : Host.Outcome State Fault Refusal :=
  .next (returnFrom s s.regs (.mask (renderRegs s.regs)))

/-- `LR.MOVER` (42_led_ring.md R100). -/
def execLrMover (s : State) : Host.Outcome State Fault Refusal :=
  .next (returnFrom s (lrMover s.regs).1 (.moved (lrMover s.regs).2))

/-- `LR.MOVEL` (42_led_ring.md R101). -/
def execLrMovel (s : State) : Host.Outcome State Fault Refusal :=
  .next (returnFrom s (lrMovel s.regs).1 (.moved (lrMovel s.regs).2))

/-- `LR.ENABLE` (42_led_ring.md R102). -/
def execLrEnable (s : State) : Host.Outcome State Fault Refusal :=
  .next (returnFrom s (lrEnable s.regs) .none)

/-- `LR.DISABLE` (42_led_ring.md R103). -/
def execLrDisable (s : State) : Host.Outcome State Fault Refusal :=
  .next (returnFrom s (lrDisable s.regs) .none)

/-- `LR.TOGGLE` (42_led_ring.md R104). -/
def execLrToggle (s : State) : Host.Outcome State Fault Refusal :=
  .next (returnFrom s (lrToggle s.regs) .none)

end Sys2Proof.Machine
end

