-- ==== Sys2Proof/Machine/QuadratureDecoder.lean ====
section
/-!
DEFINITION. The quadrature decoder QD (40_quadrature_decoder.md): the table `QD_STEP` and the four operations.
-/

namespace Sys2Proof.Machine

/-- `QD_STEP` (40_quadrature_decoder.md R75): the next state and the optional direction. The two Booleans matched are
`x[1]` and `x[0]`, in the order the sample labels are written (30_encoding.md R71). -/
def qdStep (q : EncState) (x : Phase) : EncState × Option Direction :=
  match q, x.getLsbD 1, x.getLsbD 0 with
  | .idle, false, true => (.cwHalf1, none)
  | .idle, true, false => (.ccwHalf1, none)
  | .cwHalf1, true, true => (.idle, none)
  | .cwHalf1, false, false => (.cwHalf2, none)
  | .cwHalf2, false, true => (.cwHalf1, none)
  | .cwHalf2, true, false => (.cwHalf3, none)
  | .cwHalf3, true, true => (.idle, some .clockwise)
  | .cwHalf3, false, false => (.cwHalf2, none)
  | .ccwHalf1, true, true => (.idle, none)
  | .ccwHalf1, false, false => (.ccwHalf2, none)
  | .ccwHalf2, false, true => (.ccwHalf3, none)
  | .ccwHalf2, true, false => (.ccwHalf1, none)
  | .ccwHalf3, true, true => (.idle, some .counterClockwise)
  | .ccwHalf3, false, false => (.ccwHalf2, none)
  | s, _, _ => (s, none)

/-- One decoder step with sample `x`, run on its own. -/
def qdOp (x : Phase) (s : State) : State :=
  returnFrom s { s.regs with encState := (qdStep s.regs.encState x).1 } (.dir (qdStep s.regs.encState x).2)

/-- `QD.STEP00` (40_quadrature_decoder.md R79). -/
def execQdStep00 (s : State) : Host.Outcome State Fault Refusal := .next (qdOp 0b00#2 s)

/-- `QD.STEP01` (40_quadrature_decoder.md R76). -/
def execQdStep01 (s : State) : Host.Outcome State Fault Refusal := .next (qdOp 0b01#2 s)

/-- `QD.STEP10` (40_quadrature_decoder.md R77). -/
def execQdStep10 (s : State) : Host.Outcome State Fault Refusal := .next (qdOp 0b10#2 s)

/-- `QD.STEP11` (40_quadrature_decoder.md R78). -/
def execQdStep11 (s : State) : Host.Outcome State Fault Refusal := .next (qdOp 0b11#2 s)

/-- A sequence of samples: the state they lead to and the directions emitted, in order. -/
def qdRun (q : EncState) : List Phase → EncState × List Direction
  | [] => (q, [])
  | x :: xs =>
    ((qdRun (qdStep q x).1 xs).1, (qdStep q x).2.toList ++ (qdRun (qdStep q x).1 xs).2)

/-- The state-changing samples of a sequence (40_quadrature_decoder.md R81), in order. -/
def qdChanging (q : EncState) : List Phase → List Phase
  | [] => []
  | x :: xs =>
    (if (qdStep q x).1 = q then [] else [x]) ++ qdChanging (qdStep q x).1 xs

/-- The states of the clockwise path (40_quadrature_decoder.md R86). -/
def isCw : EncState → Bool
  | .cwHalf1 => true
  | .cwHalf2 => true
  | .cwHalf3 => true
  | .idle => false
  | .ccwHalf1 => false
  | .ccwHalf2 => false
  | .ccwHalf3 => false

/-- The states of the counter-clockwise path (40_quadrature_decoder.md R86). -/
def isCcw : EncState → Bool
  | .ccwHalf1 => true
  | .ccwHalf2 => true
  | .ccwHalf3 => true
  | .idle => false
  | .cwHalf1 => false
  | .cwHalf2 => false
  | .cwHalf3 => false

end Sys2Proof.Machine
end

