-- ==== Sys2Proof/Machine/Events.lean ====
section
/-!
DEFINITION. The dispatch and the nine boundary events (43_dispatch.md): the handlers `OnSignal`, `OnTimer`, `OnBoth` of
the event layer, and each event as one clock edge.
-/

namespace Sys2Proof.Machine

/-- An accepted press (43_dispatch.md R115, step 2): toggle, arm, render and publish. The registers given are those
after `BG_TRYACCEPT` closed the gate; the phase is dropped. -/
def pressBranch (r : Regs) : Regs × Effect :=
  (lrToggle r, { publish := some (renderRegs (lrToggle r)), arm := true })

/-- The phase branch (43_dispatch.md R115, step 3): decode the phase, move, and publish as R127 says. -/
def phaseBranch (publishOnNoopMove : Bool) (r : Regs) (x : Phase) : Regs × Effect :=
  let dir := (qdStep r.encState x).2
  let after := moveFor dir { r with encState := (qdStep r.encState x).1 }
  ( after.1,
    { publish := if publishesMove publishOnNoopMove after.2 dir then some (renderRegs after.1) else none,
      arm := false } )

/-- `OnSignal` (43_dispatch.md R115) for a given `PUBLISH_ON_NOOP_MOVE`: the button is tested first (R130), and a press
that is not accepted does not end the event (R131). -/
def onSignalWith (publishOnNoopMove : Bool) (r : Regs) (raw : Raw) : Regs × Effect :=
  let tried := bgTryAccept r (button raw)
  if tried.2 then pressBranch tried.1 else phaseBranch publishOnNoopMove tried.1 (phase raw)

/-- `OnSignal` (43_dispatch.md R115), with the parameter as the spec decides it (R127). -/
def onSignal (r : Regs) (raw : Raw) : Regs × Effect := onSignalWith Config.publishOnNoopMove r raw

/-- `OnTimer` (43_dispatch.md R121). -/
def onTimer (r : Regs) : Regs × Effect := (bgReopen r, noEffect)

/-- `OnBoth` (43_dispatch.md R124) for a given `COINCIDENT_ORDER` and `PUBLISH_ON_NOOP_MOVE`: the two handlers one after
the other. The effect is `OnSignal`'s: `OnTimer` has none. -/
def onBothWith (publishOnNoopMove : Bool) (order : CoincidentOrder) (r : Regs) (raw : Raw) : Regs × Effect :=
  match order with
  | .sigFirst =>
    ((onTimer (onSignalWith publishOnNoopMove r raw).1).1, (onSignalWith publishOnNoopMove r raw).2)
  | .tmrFirst => onSignalWith publishOnNoopMove (onTimer r).1 raw

/-- `OnBoth` (43_dispatch.md R124), with `PUBLISH_ON_NOOP_MOVE` as the spec decides it. -/
def onBoth (order : CoincidentOrder) (r : Regs) (raw : Raw) : Regs × Effect :=
  onBothWith Config.publishOnNoopMove order r raw

/-- `RST` (43_dispatch.md R123): `ResetState` and no effect. The model's own fields are not the block's and stay. -/
def execRst (s : State) : Host.Outcome State Fault Refusal := .next (clockEdge s (Regs.reset, noEffect))

/-- `NOP` (43_dispatch.md R122). -/
def execNop (s : State) : Host.Outcome State Fault Refusal := .next (clockEdge s (s.regs, noEffect))

/-- `TMR` (43_dispatch.md R121). -/
def execTmr (s : State) : Host.Outcome State Fault Refusal := .next (clockEdge s (onTimer s.regs))

/-- `SIG.P00` (43_dispatch.md R116). -/
def execSigP00 (raw : Raw) (s : State) : Host.Outcome State Fault Refusal :=
  .next (clockEdge s (onSignal s.regs raw))

/-- `SIG.P01` (43_dispatch.md R117). -/
def execSigP01 (raw : Raw) (s : State) : Host.Outcome State Fault Refusal :=
  .next (clockEdge s (onSignal s.regs raw))

/-- `SIG.P10` (43_dispatch.md R118). -/
def execSigP10 (raw : Raw) (s : State) : Host.Outcome State Fault Refusal :=
  .next (clockEdge s (onSignal s.regs raw))

/-- `SIG.P11` (43_dispatch.md R119). -/
def execSigP11 (raw : Raw) (s : State) : Host.Outcome State Fault Refusal :=
  .next (clockEdge s (onSignal s.regs raw))

/-- `SIG.BTN` (43_dispatch.md R120). -/
def execSigBtn (raw : Raw) (s : State) : Host.Outcome State Fault Refusal :=
  .next (clockEdge s (onSignal s.regs raw))

/-- `SIGTMR` (43_dispatch.md R124): the order is the free value at this coincidence, and the count of coincidences
advances (log entry 3). -/
def execSigTmr (raw : Raw) (s : State) : Host.Outcome State Fault Refusal :=
  .next (clockEdge { s with coincidences := s.coincidences + 1 }
    (onBoth (Config.coincidentOrder s.coincidences) s.regs raw))

end Sys2Proof.Machine
end

