-- ==== Sys2Proof/Machine/Dispatch.lean ====
section
/-! DEFINITION. The dispatch of an instruction to its meaning, one arm per row of spec/opcode_table.json. -/

namespace Sys2Proof.Machine

/-- The meaning of an instruction. -/
def exec (i : Instr) (s : State) : Host.Outcome State Fault Refusal :=
  match i with
  | .rst => Sys2Proof.Machine.execRst s
  | .nop => Sys2Proof.Machine.execNop s
  | .tmr => Sys2Proof.Machine.execTmr s
  | .sigP00 raw => Sys2Proof.Machine.execSigP00 raw s
  | .sigP01 raw => Sys2Proof.Machine.execSigP01 raw s
  | .sigP10 raw => Sys2Proof.Machine.execSigP10 raw s
  | .sigP11 raw => Sys2Proof.Machine.execSigP11 raw s
  | .sigBtn raw => Sys2Proof.Machine.execSigBtn raw s
  | .sigTmr raw => Sys2Proof.Machine.execSigTmr raw s
  | .qdStep00 => Sys2Proof.Machine.execQdStep00 s
  | .qdStep01 => Sys2Proof.Machine.execQdStep01 s
  | .qdStep10 => Sys2Proof.Machine.execQdStep10 s
  | .qdStep11 => Sys2Proof.Machine.execQdStep11 s
  | .bgTryAccept pressed => Sys2Proof.Machine.execBgTryAccept pressed s
  | .bgReopen => Sys2Proof.Machine.execBgReopen s
  | .lrRender => Sys2Proof.Machine.execLrRender s
  | .lrMover => Sys2Proof.Machine.execLrMover s
  | .lrMovel => Sys2Proof.Machine.execLrMovel s
  | .lrEnable => Sys2Proof.Machine.execLrEnable s
  | .lrDisable => Sys2Proof.Machine.execLrDisable s
  | .lrToggle => Sys2Proof.Machine.execLrToggle s

end Sys2Proof.Machine
end

