-- ==== Sys2Proof/Machine/Step.lean ====
section
/-!
DEFINITION. One step: the word presented is decoded and run (43_dispatch.md R125). A word that names nothing is refused.
-/

namespace Sys2Proof.Machine

/-- One step of the machine: one clock cycle of the block, or one internal operation run on its own. -/
def step (s : State) : Host.Outcome State Fault Refusal :=
  match decode (presented s) with
  | .ok i => exec i (consume s)
  | .error e => .refused (refusalOf e)

/-- `s` with the bits `w` presented as its next input word (log entry 1: there is no program memory; this stands for the
environment's driving the ports). -/
def State.withFetchWord (s : State) (nbits w : Nat) : State := present s (inputOfBits nbits w)

end Sys2Proof.Machine
end

