-- ==== Sys2Proof/Machine/Codes.lean ====
section
/-!
DEFINITION. The encodings of stored and transient values (30_encoding.md R62, R64) and the decoder of a circuit that
stores the 3-bit code, with the treatment R66 gives the code that is not a state. The machine itself uses the
seven-valued type; nothing of this file is on its path.
-/

namespace Sys2Proof.Machine

/-- The 3-bit code of a state (30_encoding.md R62). -/
def encCode : EncState → BitVec 3
  | .idle => 0b000#3
  | .cwHalf1 => 0b001#3
  | .cwHalf2 => 0b010#3
  | .cwHalf3 => 0b011#3
  | .ccwHalf1 => 0b100#3
  | .ccwHalf2 => 0b101#3
  | .ccwHalf3 => 0b110#3

/-- The state a 3-bit code stands for; `0b111` is not a state (30_encoding.md R62, R66). -/
def encOfCode? (c : BitVec 3) : Option EncState :=
  match c.getLsbD 2, c.getLsbD 1, c.getLsbD 0 with
  | false, false, false => some .idle
  | false, false, true => some .cwHalf1
  | false, true, false => some .cwHalf2
  | false, true, true => some .cwHalf3
  | true, false, false => some .ccwHalf1
  | true, false, true => some .ccwHalf2
  | true, true, false => some .ccwHalf3
  | true, true, true => none

/-- The 2-bit code of the decoder's result (30_encoding.md R64). -/
def dirCode : Option Direction → BitVec 2
  | none => 0b00#2
  | some .clockwise => 0b01#2
  | some .counterClockwise => 0b10#2

/-- One decoder step of a circuit that stores the code: `0b111` is treated as `Idle` (30_encoding.md R66,
92_eei_decisions.md D9). DEDUCED (log entry 5): with a sample that is a no-op in `Idle`, the circuit goes to the
code of `Idle`. -/
def circuitStep (c : BitVec 3) (x : Phase) : BitVec 3 × BitVec 2 :=
  let q := (encOfCode? c).getD .idle
  (encCode (qdStep q x).1, dirCode (qdStep q x).2)

end Sys2Proof.Machine
end

