-- ==== Sys2Proof/Machine/Trace.lean ====
section
/-!
DEFINITION. Runs of the event layer (00_scope.md R12), the handlers one clock cycle runs (43_dispatch.md R125, R124), and the
trace notation with its pseudo-events (30_encoding.md R68, R69).
-/

namespace Sys2Proof.Machine

/-- An event of the event layer (00_scope.md R12). -/
inductive Event where
  /-- `onEncoderSignal(raw)`. -/
  | sig (raw : Raw)
  /-- `onDebounceTimerExpired()`. -/
  | tmr
deriving DecidableEq, Repr

/-- One event, for a given `PUBLISH_ON_NOOP_MOVE`. -/
def handle (publishOnNoopMove : Bool) (r : Regs) : Event → Regs × Effect
  | .sig raw => onSignalWith publishOnNoopMove r raw
  | .tmr => onTimer r

/-- A run (00_scope.md R12): the left fold of the handlers over the events, and the sequence of effects. -/
def runEvents (publishOnNoopMove : Bool) (r : Regs) : List Event → Regs × List Effect
  | [] => (r, [])
  | e :: es =>
    ( (runEvents publishOnNoopMove (handle publishOnNoopMove r e).1 es).1,
      (handle publishOnNoopMove r e).2 :: (runEvents publishOnNoopMove (handle publishOnNoopMove r e).1 es).2 )

/-- The LED driver's latch after a sequence of effects: the mask of the most recent publish, or what it held
(43_dispatch.md R132). -/
def latchAfter (disp : Option Mask) : List Effect → Option Mask
  | [] => disp
  | e :: es => latchAfter (e.publish.orElse fun _ => disp) es

/-- The handlers that one clock cycle without reset runs, in order (43_dispatch.md R124, R125). -/
def handlersOf (order : CoincidentOrder) (v : Cyc) : List Event :=
  match cycTmr v, cycSig v, order with
  | false, false, _ => []
  | true, false, _ => [.tmr]
  | false, true, _ => [.sig (cycRaw v)]
  | true, true, .sigFirst => [.sig (cycRaw v), .tmr]
  | true, true, .tmrFirst => [.tmr, .sig (cycRaw v)]

/-- A line of a trace (30_encoding.md R68). -/
inductive TraceLine where
  | rst
  | nop
  | tmr
  | sig (raw : Raw)
  | sigTmr (raw : Raw)
deriving DecidableEq, Repr

/-- The `CYC` vector of a line (30_encoding.md R68). -/
def lineVector : TraceLine → Cyc
  | .rst => 0x400000000#35
  | .nop => 0x000000000#35
  | .tmr => 0x200000000#35
  | .sig raw => sigVector raw
  | .sigTmr raw => sigTmrVector raw

/-- Pseudo-event `CW` (30_encoding.md R69): one clean clockwise detent with the button up. -/
def traceCw : List TraceLine := [.sig 0b001#32, .sig 0b000#32, .sig 0b010#32, .sig 0b011#32]

/-- Pseudo-event `CCW` (30_encoding.md R69): one clean counter-clockwise detent with the button up. -/
def traceCcw : List TraceLine := [.sig 0b010#32, .sig 0b000#32, .sig 0b001#32, .sig 0b011#32]

/-- Pseudo-event `PRESS` (30_encoding.md R69). -/
def tracePress : List TraceLine := [.sig 0b111#32]

/-- Pseudo-event `RELEASE` (30_encoding.md R69). -/
def traceRelease : List TraceLine := [.sig 0b011#32]

/-- Pseudo-event `WAIT n` (30_encoding.md R69). -/
def traceWait (n : Nat) : List TraceLine := List.replicate n .nop

/-- The state with the lines of a trace presented as its input words. -/
def withTrace (s : State) (ls : List TraceLine) : State :=
  { s with inputs := ls.map fun l => .cyc (lineVector l) }

/-- A pulse that the timer collaborator and the block exchange (60_exceptions.md R145). -/
inductive Pulse where
  | arm
  | expiry
deriving DecidableEq, Repr

/-- The arm requests and expiries of a run of the event layer, in the order in which the handlers make and take them.
These are calls, not pulses: at the ports an arm pulse stands in the cycle after its event, so an expiry that comes in
the cycle of a press stands before its arm (`portPulses` in Machine/Collaborators.lean). -/
def pulsesOf (publishOnNoopMove : Bool) (r : Regs) : List Event → List Pulse
  | [] => []
  | .sig raw :: es =>
    (if (onSignalWith publishOnNoopMove r raw).2.arm then [Pulse.arm] else []) ++
      pulsesOf publishOnNoopMove (onSignalWith publishOnNoopMove r raw).1 es
  | .tmr :: es => Pulse.expiry :: pulsesOf publishOnNoopMove (onTimer r).1 es

/-- `TimerOneShot` (60_exceptions.md R145): the pulses alternate, starting with an arm (or, when `running`, with the expiry
of the window that runs). -/
def timerOneShot (running : Bool) : List Pulse → Bool
  | [] => true
  | .arm :: ps => !running && timerOneShot true ps
  | .expiry :: ps => running && timerOneShot false ps

/-- Whether a window runs after the pulses: between an arm and the expiry that answers it (60_exceptions.md R145). -/
def windowAfter (running : Bool) : List Pulse → Bool
  | [] => running
  | .arm :: ps => windowAfter true ps
  | .expiry :: ps => windowAfter false ps

/-- The timer's half of `TimerOneShot` alone: an expiry comes only while a window runs. -/
def expiriesAnswerArms (running : Bool) : List Pulse → Bool
  | [] => true
  | .arm :: ps => expiriesAnswerArms true ps
  | .expiry :: ps => running && expiriesAnswerArms false ps

end Sys2Proof.Machine
end

