-- ==== Sys2Proof/Machine/Collaborators.lean ====
section
/-!
DEFINITION. The collaborators beside the block (60_exceptions.md R145 to R147): the pulses that a free timer and the block
exchange at the ports; and the optional reference timer and the LED driver's latch, closed with the block into one system. None of it is state of the block (10_state.md R31); the
block's own `step` is what the system runs (log entry 12).
-/

namespace Sys2Proof.Machine

/-- The pulse on the port `arm_debounce` in the cycle that the state stands for (10_state.md R25). -/
def armPulse (s : State) : List Pulse := if s.armDebounce then [.arm] else []

/-- Whether `tmr_expired` is 1 in the cycle that the state stands for (43_dispatch.md R125); no `UOP` word carries it. -/
def expiryPresented (s : State) : Bool :=
  match presented s with
  | .cyc v => cycTmr v
  | .uop _ => false
  | .stray _ _ => false

/-- The pulses at the ports in `n` cycles from a state and the arm pulse of the cycle after them (60_exceptions.md R145).
The timer is a free input: `tmr_expired` is what the words presented carry. `TimerOneShot` of the ports is `timerOneShot`
of these pulses, and the timer's half of it `expiriesAnswerArms`. DEDUCED (log entry 14): within one cycle the arm pulse
counts before the expiry. -/
def portPulses : Nat → State → List Pulse
  | 0, s => armPulse s
  | n + 1, s =>
    armPulse s ++ (if expiryPresented s then [.expiry] else []) ++
      match step s with
      | .next t => portPulses n t
      | .fault _ => []
      | .refused _ => []

/-- The reference timer (60_exceptions.md R146). -/
structure RefTimer where
  /-- `tmr_cnt`, wide enough for `DEBOUNCE_TICKS`. -/
  cnt : Nat
  /-- `tmr_run`. -/
  run : Bool
  /-- The output register `tmr_expired`. -/
  expired : Bool
deriving DecidableEq, Repr

/-- The timer after reset (60_exceptions.md R146). -/
def refTimerReset : RefTimer := { cnt := 0, run := false, expired := false }

/-- One rising edge of `clk` for the timer, with `DEBOUNCE_TICKS` = `ticks` (60_exceptions.md R146). -/
def refTimerTick (ticks : Nat) (rst armDebounce : Bool) (t : RefTimer) : RefTimer :=
  if rst then refTimerReset
  else if armDebounce then { cnt := ticks, run := true, expired := false }
  else if t.run then
    if t.cnt ≤ 1 then { cnt := t.cnt, run := false, expired := true }
    else { cnt := t.cnt - 1, run := true, expired := false }
  else { cnt := t.cnt, run := false, expired := false }

/-- What the environment drives in one cycle of the closed system: `tmr_expired` is the timer's. -/
structure EnvInput where
  rst : Bool
  sigValid : Bool
  raw : Raw
deriving DecidableEq, Repr

/-- The block, the reference timer and the LED driver's latch. -/
structure System where
  block : State
  timer : RefTimer
  /-- `disp` (43_dispatch.md R132): empty before the first publish (70_reset_and_hazards.md R164). -/
  disp : Option Mask
deriving DecidableEq, Repr

/-- The LED driver at an edge: it takes `led_mask` when `publish` = 1 (60_exceptions.md R147). -/
def latchTick (s : State) (disp : Option Mask) : Option Mask :=
  if s.publish then some (ledMask s) else disp

/-- The state of the block with the ports driven for one cycle. -/
def drivePorts (s : State) (v : Cyc) : State := { s with inputs := [.cyc v] }

/-- One clock cycle of the closed system: every part steps on the values before the edge. -/
def systemStep (ticks : Nat) (e : EnvInput) (y : System) : Host.Outcome System Fault Refusal :=
  match step (drivePorts y.block (cycVector e.rst y.timer.expired e.sigValid e.raw)) with
  | .next b =>
    .next { block := b, timer := refTimerTick ticks e.rst y.block.armDebounce y.timer,
            disp := latchTick y.block y.disp }
  | .fault f => .fault f
  | .refused r => .refused r

/-- A run of the closed system, one cycle per input. -/
def systemRun (ticks : Nat) : List EnvInput → System → Host.Outcome System Fault Refusal
  | [], y => .next y
  | e :: es, y =>
    match systemStep ticks e y with
    | .next z => systemRun ticks es z
    | .fault f => .fault f
    | .refused r => .refused r

/-- The closed system after reset; the latch is empty. -/
def systemReset : System := { block := State.reset, timer := refTimerReset, disp := none }

/-- The window of the closed system (60_exceptions.md R145): with the gate open no pulse is on its way and the timer is at
rest; with the gate armed exactly one of the arm pulse, the running timer and the expiry pulse is there. -/
def windowMatchesGate (y : System) : Bool :=
  match y.block.regs.gateOpen, y.block.armDebounce, y.timer.run, y.timer.expired with
  | true, false, false, false => true
  | false, true, false, false => true
  | false, false, true, false => true
  | false, false, false, true => true
  | _, _, _, _ => false

/-- The display invariant of the closed system (43_dispatch.md R132): the latch is empty or shows the current rendering,
unless a publish is under way that will make it so. -/
def displayFollows (y : System) : Bool :=
  y.block.publish || y.disp.isNone || y.disp == some (ledMask y.block)

end Sys2Proof.Machine
end

