-- ==== Sys2Proof/Safety.lean ====
section
/-!
DEFINITION. What counts as a safe run. The spec forbids any failure (60_exceptions.md R136), so a safe step is one that
answers a next state; the premise is that every word presented is one that the formats of 30_encoding.md express.
-/

namespace Sys2Proof.Machine

/-- Whether a word is an event or names an operation (30_encoding.md R60, R61): every `CYC` vector is, and every `UOP` code
but the three reserved ones (R66). -/
def expressible (i : Input) : Bool :=
  match i with
  | .cyc _ => true
  | .uop u => u != 0x7#4 && u != 0xE#4 && u != 0xF#4
  | .stray _ _ => false

/-- Whether every word the environment will present is expressible. -/
def inputsExpressible (s : State) : Bool := s.inputs.all expressible

/-- Whether a step answers a next state. -/
def stepsOn (s : State) : Prop := ∃ t, step s = .next t

end Sys2Proof.Machine
end

