-- ==== Sys2Proof/Certificates/Slice0/Obligations.lean ====
section
/-!
DEFINITION. The statements for the provers, in the order of OBLIGATIONS.json: encoding, step and reset, the nine boundary
events, the twelve internal operations, the properties of the components, the whole machine, the collaborators.

A statement of an event's result is an equation for the whole next state, so it is the completion statement and the
frame at once: every register and output register it does not name is unchanged. That an event leaves the model's own
fields (`inputs`, `result`, `coincidences`) alone is the model's choice (log entry 8), and no rule is cited for it. A
statement of an internal operation's result gives all four registers and what the operation returns, which is read in
the field `result` (log entry 2); that the output registers keep their values is the model's choice and a statement of
its own.
-/

open Sys2Proof Sys2Proof.Machine

/-! ## Encoding -/

/-- 30_encoding.md sections 3 and 4: decode and encode agree on every well-formed instruction. -/
def Obligations.DecodeEncodeAgree : Prop :=
  ∀ i : Instr, wellFormed i = true → decode (encode i) = .ok i

/-- R60: "Every one of the 2^35 vectors matches exactly one row", and the decoder gives that row's event, with `raw`
the low 32 bits. -/
def Obligations.EveryVectorMatchesExactlyOneRow : Prop :=
  ∀ v : Cyc, ∃ row ∈ cycRows, row.matchesVector v = true ∧
    (∀ other ∈ cycRows, other.matchesVector v = true → other = row) ∧
    ∃ i, decode (.cyc v) = .ok i ∧ i.mnemonic = row.mnemonic ∧
      ∀ raw, i.raw? = some raw → raw = v.extractLsb' 0 32

/-- 30_encoding.md sections 3 and 4, the other direction: what decodes is well formed; an operation's index is the
encoding of what it decodes to; a vector and the encoding of its event match the same row. -/
def Obligations.DecodedIsWellFormed : Prop :=
  ∀ inp i, decode inp = .ok i →
    wellFormed i = true ∧
    (∀ u, inp = .uop u → encode i = .uop u) ∧
    (∀ v, inp = .cyc v → ∃ row ∈ cycRows, row.mnemonic = i.mnemonic ∧ row.matchesVector v = true ∧
      ∃ w, encode i = .cyc w ∧ row.matchesVector w = true)

/-- R61, R66 and U11: exactly the codes 0x7, 0xE and 0xF name no operation. That a step presented one refuses it by name
is the model's reading, not the rules' words: the codes are refused (log entry 6), and a `UOP` word is run as a step
(log entry 2). -/
def Obligations.ReservedUopCodesRefused : Prop :=
  ∀ (u : Uop),
    ((u = 0x7#4 ∨ u = 0xE#4 ∨ u = 0xF#4) →
      decode (.uop u) = .error (.reservedUop u) ∧
      ∀ (s : State) (rest : List Input), s.inputs = .uop u :: rest → step s = .refused (.reservedUop u)) ∧
    (¬(u = 0x7#4 ∨ u = 0xE#4 ∨ u = 0xF#4) → ∃ i, decode (.uop u) = .ok i)

/-- A few words written out from the tables of R60 and R61 decode to their instructions. -/
def Obligations.SpecWordsDecode : Prop :=
  decode (.cyc 0x400000000#35) = .ok .rst ∧ decode (.cyc 0x200000000#35) = .ok .tmr ∧
  decode (.cyc 0x1FFFFFFF9#35) = .ok (.sigP01 0xFFFFFFF9#32) ∧
  decode (.cyc 0x1DEADBEEC#35) = .ok (.sigBtn 0xDEADBEEC#32) ∧
  decode (.cyc 0x300000007#35) = .ok (.sigTmr 0x7#32) ∧
  decode (.uop 0b0010#4) = .ok .qdStep10 ∧ decode (.uop 0b0101#4) = .ok (.bgTryAccept true) ∧
  decode (.uop 0b1101#4) = .ok .lrToggle

/-- R58: two `RAW` words that agree in bits 2:0 have the same effect in every state, and every one of the 2^32 words
is accepted. -/
def Obligations.IgnoredRawBits : Prop :=
  ∀ (s : State) (rest : List Input) (a b : Raw), a.extractLsb' 0 3 = b.extractLsb' 0 3 →
    step { s with inputs := .cyc (sigVector a) :: rest } = step { s with inputs := .cyc (sigVector b) :: rest } ∧
    step { s with inputs := .cyc (sigTmrVector a) :: rest } = step { s with inputs := .cyc (sigTmrVector b) :: rest } ∧
    (∃ t, step { s with inputs := .cyc (sigVector a) :: rest } = .next t) ∧
    (∃ t, step { s with inputs := .cyc (sigTmrVector a) :: rest } = .next t)

/-! ## Step and reset -/

/-- A step runs the instruction that the word presented decodes to; around it, the step only moves on to the next
word. -/
def Obligations.StepRunsDecodedInstruction : Prop :=
  ∀ (s : State) (inp : Input) (rest : List Input) (i : Instr),
    s.inputs = inp :: rest → decode inp = .ok i → step s = exec i { s with inputs := rest }

/-- The model's choice (log entry 1), after R122: when nothing is presented, the step is a `NOP` cycle. -/
def Obligations.NothingPresentedIsNop : Prop :=
  ∀ s : State, s.inputs = [] → step s = exec .nop s

/-- R32: the registers and the output registers after reset. -/
def Obligations.ResetValues : Prop :=
  State.reset.regs.encState = .idle ∧ State.reset.regs.gateOpen = true ∧ State.reset.regs.ledNum = 0#4 ∧
  State.reset.regs.ledEnable = true ∧ State.reset.publish = false ∧ State.reset.armDebounce = false

/-- R26 and R32, the row that the spec marks as its own inference ("`led_mask` (output, combinational)"): after
reset, and after every `RST`, the mask shown is 0x0001. -/
def Obligations.ResetMask : Prop :=
  ledMask State.reset = 0x0001#16 ∧
  ∀ s : State, ∃ t, exec .rst s = .next t ∧ ledMask t = 0x0001#16

/-- The invariants stated below hold at reset. Three clauses rest on the model's choices: that every word to come is
expressible at reset holds because the model's field `inputs` starts empty (log entry 1); that the window matches the
gate, because the reference timer is reset with the block (log entry 12); and that the display follows, because the LED
driver's latch starts empty in the model (log entry 12; the spec leaves what the ring shows unspecified, R164). -/
def Obligations.ResetMeetsTheInvariants : Prop :=
  inputsExpressible State.reset = true ∧ (State.reset.armDebounce = true → State.reset.publish = true) ∧
  windowMatchesGate systemReset = true ∧ displayFollows systemReset = true

/-! ## The boundary events -/

/-- R123: `rst` = 1 overrides both strobes; the registers take their reset values and no effect is produced. -/
def Obligations.RstResult : Prop :=
  (∀ v : Cyc, v.getLsbD 34 = true → decode (.cyc v) = .ok .rst) ∧
  ∀ s : State, exec .rst s = .next { s with
    regs := { encState := .idle, gateOpen := true, ledNum := 0#4, ledEnable := true },
    publish := false, armDebounce := false }

/-- R122: a `NOP` cycle keeps the four registers and clears the two output registers, whatever `raw` carries; any
number of them changes no register. -/
def Obligations.NopResult : Prop :=
  (∀ raw : Raw, decode (.cyc (raw.setWidth 35)) = .ok .nop) ∧
  (∀ s : State, exec .nop s = .next { s with publish := false, armDebounce := false }) ∧
  (∀ (raws : List Raw) (s : State) (rest : List Input),
    s.inputs = raws.map (fun raw => .cyc (raw.setWidth 35)) ++ rest →
    ∃ t, core.run raws.length s = .next t ∧ t.regs = s.regs ∧ t.inputs = rest)

/-- R121: `TMR` opens the gate and has no effect. -/
def Obligations.TmrResult : Prop :=
  (∀ raw : Raw, decode (.cyc (0x200000000#35 ||| raw.setWidth 35)) = .ok .tmr) ∧
  ∀ s : State, exec .tmr s = .next { s with
    regs := { s.regs with gateOpen := true }, publish := false, armDebounce := false }

/-- R116: `SIG.P00`, with the decoder's row written out. -/
def Obligations.SigP00Result : Prop :=
  ∀ (raw : Raw) (s : State), raw.extractLsb' 0 3 = 0b000#3 →
    decode (.cyc (sigVector raw)) = .ok (.sigP00 raw) ∧
    exec (.sigP00 raw) s = .next { s with
      regs := { s.regs with encState :=
        match s.regs.encState with
        | .cwHalf1 => .cwHalf2
        | .cwHalf3 => .cwHalf2
        | .ccwHalf1 => .ccwHalf2
        | .ccwHalf3 => .ccwHalf2
        | q => q },
      publish := false, armDebounce := false }

/-- R117: `SIG.P01`, with the decoder's row written out. -/
def Obligations.SigP01Result : Prop :=
  ∀ (raw : Raw) (s : State), raw.extractLsb' 0 3 = 0b001#3 →
    decode (.cyc (sigVector raw)) = .ok (.sigP01 raw) ∧
    exec (.sigP01 raw) s = .next { s with
      regs := { s.regs with encState :=
        match s.regs.encState with
        | .idle => .cwHalf1
        | .cwHalf2 => .cwHalf1
        | .ccwHalf2 => .ccwHalf3
        | q => q },
      publish := false, armDebounce := false }

/-- R118: `SIG.P10`, with the decoder's row written out. -/
def Obligations.SigP10Result : Prop :=
  ∀ (raw : Raw) (s : State), raw.extractLsb' 0 3 = 0b010#3 →
    decode (.cyc (sigVector raw)) = .ok (.sigP10 raw) ∧
    exec (.sigP10 raw) s = .next { s with
      regs := { s.regs with encState :=
        match s.regs.encState with
        | .idle => .ccwHalf1
        | .cwHalf2 => .cwHalf3
        | .ccwHalf2 => .ccwHalf1
        | q => q },
      publish := false, armDebounce := false }

/-- R119: `SIG.P11`, the event that completes a detent, case by case, with the mask it publishes. -/
def Obligations.SigP11Result : Prop :=
  ∀ (raw : Raw) (s : State), raw.extractLsb' 0 3 = 0b011#3 →
    decode (.cyc (sigVector raw)) = .ok (.sigP11 raw) ∧
    (s.regs.encState = .cwHalf3 →
      exec (.sigP11 raw) s = .next { s with
        regs := { s.regs with
          encState := .idle, ledNum := if s.regs.ledEnable then s.regs.ledNum - 1#4 else s.regs.ledNum },
        publish := s.regs.ledEnable, armDebounce := false } ∧
      (onSignal s.regs raw).2.publish =
        if s.regs.ledEnable then some (1#16 <<< (s.regs.ledNum - 1#4).toNat) else none) ∧
    (s.regs.encState = .ccwHalf3 →
      exec (.sigP11 raw) s = .next { s with
        regs := { s.regs with
          encState := .idle, ledNum := if s.regs.ledEnable then s.regs.ledNum + 1#4 else s.regs.ledNum },
        publish := s.regs.ledEnable, armDebounce := false } ∧
      (onSignal s.regs raw).2.publish =
        if s.regs.ledEnable then some (1#16 <<< (s.regs.ledNum + 1#4).toNat) else none) ∧
    (s.regs.encState = .cwHalf1 ∨ s.regs.encState = .ccwHalf1 →
      exec (.sigP11 raw) s = .next { s with
        regs := { s.regs with encState := .idle }, publish := false, armDebounce := false }) ∧
    (s.regs.encState = .idle ∨ s.regs.encState = .cwHalf2 ∨ s.regs.encState = .ccwHalf2 →
      exec (.sigP11 raw) s = .next { s with publish := false, armDebounce := false })

/-- R120: `SIG.BTN`. With the gate open the press is accepted and the phase dropped; with the gate armed the event
behaves exactly as the `SIG.Ppp` of its phase. -/
def Obligations.SigBtnResult : Prop :=
  ∀ (raw : Raw) (s : State), raw.getLsbD 2 = true →
    decode (.cyc (sigVector raw)) = .ok (.sigBtn raw) ∧
    (s.regs.gateOpen = true →
      exec (.sigBtn raw) s = .next { s with
        regs := { s.regs with gateOpen := false, ledEnable := !s.regs.ledEnable },
        publish := true, armDebounce := true } ∧
      (onSignal s.regs raw).2 =
        { publish := some (if s.regs.ledEnable then 0x0000#16 else 1#16 <<< s.regs.ledNum.toNat), arm := true }) ∧
    (s.regs.gateOpen = false →
      exec (.sigBtn raw) s =
        match raw.getLsbD 1, raw.getLsbD 0 with
        | false, false => exec (.sigP00 (raw &&& ~~~4#32)) s
        | false, true => exec (.sigP01 (raw &&& ~~~4#32)) s
        | true, false => exec (.sigP10 (raw &&& ~~~4#32)) s
        | true, true => exec (.sigP11 (raw &&& ~~~4#32)) s)

/-- R124: `SIGTMR` is the two handlers one after the other, in one of the two orders, and the table of R124 for both
orders. What becomes of the model's count of coincidences is left open (log entry 3). -/
def Obligations.SigTmrResult : Prop :=
  (∀ raw : Raw, decode (.cyc (sigTmrVector raw)) = .ok (.sigTmr raw)) ∧
  (∀ (raw : Raw) (s : State), ∃ (order : CoincidentOrder) (n : Nat), exec (.sigTmr raw) s = .next { s with
    regs := (onBoth order s.regs raw).1,
    publish := (onBoth order s.regs raw).2.publish.isSome,
    armDebounce := (onBoth order s.regs raw).2.arm,
    coincidences := n }) ∧
  (∀ (raw : Raw) (r : Regs),
    onBoth .sigFirst r raw = ((onTimer (onSignal r raw).1).1, (onSignal r raw).2) ∧
    onBoth .tmrFirst r raw = onSignal (onTimer r).1 raw ∧
    (raw.getLsbD 2 = false → ∀ order,
      onBoth order r raw = ({ (onSignal r raw).1 with gateOpen := true }, (onSignal r raw).2) ∧
      (onSignal r raw).1.ledEnable = r.ledEnable ∧ (onSignal r raw).2.arm = false) ∧
    (raw.getLsbD 2 = true → r.gateOpen = true →
      onBoth .sigFirst r raw = ({ r with gateOpen := true, ledEnable := !r.ledEnable },
        { publish := some (lrRenderMask r.ledNum (!r.ledEnable)), arm := true }) ∧
      onBoth .tmrFirst r raw = ({ r with gateOpen := false, ledEnable := !r.ledEnable },
        { publish := some (lrRenderMask r.ledNum (!r.ledEnable)), arm := true })) ∧
    (raw.getLsbD 2 = true → r.gateOpen = false →
      onBoth .sigFirst r raw =
        ({ (onSignal r (raw &&& ~~~4#32)).1 with gateOpen := true }, (onSignal r (raw &&& ~~~4#32)).2) ∧
      onBoth .tmrFirst r raw = ({ r with gateOpen := false, ledEnable := !r.ledEnable },
        { publish := some (lrRenderMask r.ledNum (!r.ledEnable)), arm := true })))

/-- R171: the result of a coincidence depends on the order if and only if `raw[2]` = 1. -/
def Obligations.CoincidenceOrderMattersIffButton : Prop :=
  ∀ (r : Regs) (raw : Raw), onBoth .sigFirst r raw ≠ onBoth .tmrFirst r raw ↔ raw.getLsbD 2 = true

/-- R51: an accepted press makes two outbound calls, recorded arm before publish. -/
def Obligations.ArmBeforePublish : Prop :=
  ∀ (r : Regs) (raw : Raw), raw.getLsbD 2 = true → r.gateOpen = true →
    callsOf (onSignal r raw).2 = [.armDebounce, .publish (lrRenderMask r.ledNum (!r.ledEnable))]

/-! ## The internal operations -/

/-- R79: `QD.STEP00`, and the events that reach it. -/
def Obligations.QdStep00Result : Prop :=
  let next : EncState → EncState := fun q =>
    match q with
    | .cwHalf1 => .cwHalf2
    | .cwHalf3 => .cwHalf2
    | .ccwHalf1 => .ccwHalf2
    | .ccwHalf3 => .ccwHalf2
    | .idle => .idle
    | .cwHalf2 => .cwHalf2
    | .ccwHalf2 => .ccwHalf2
  decode (.uop 0b0000#4) = .ok .qdStep00 ∧
  (∀ s : State, ∃ t, exec .qdStep00 s = .next t ∧
    t.regs = { s.regs with encState := next s.regs.encState } ∧ t.result = .dir none) ∧
  (∀ (r : Regs) (raw : Raw), raw.extractLsb' 0 2 = 0b00#2 → (raw.getLsbD 2 = false ∨ r.gateOpen = false) →
    (onSignal r raw).1.encState = next r.encState)

/-- R76: `QD.STEP01`, and the events that reach it. -/
def Obligations.QdStep01Result : Prop :=
  let next : EncState → EncState := fun q =>
    match q with
    | .idle => .cwHalf1
    | .cwHalf2 => .cwHalf1
    | .ccwHalf2 => .ccwHalf3
    | .cwHalf1 => .cwHalf1
    | .cwHalf3 => .cwHalf3
    | .ccwHalf1 => .ccwHalf1
    | .ccwHalf3 => .ccwHalf3
  decode (.uop 0b0001#4) = .ok .qdStep01 ∧
  (∀ s : State, ∃ t, exec .qdStep01 s = .next t ∧
    t.regs = { s.regs with encState := next s.regs.encState } ∧ t.result = .dir none) ∧
  (∀ (r : Regs) (raw : Raw), raw.extractLsb' 0 2 = 0b01#2 → (raw.getLsbD 2 = false ∨ r.gateOpen = false) →
    (onSignal r raw).1.encState = next r.encState)

/-- R77: `QD.STEP10`, and the events that reach it. -/
def Obligations.QdStep10Result : Prop :=
  let next : EncState → EncState := fun q =>
    match q with
    | .idle => .ccwHalf1
    | .cwHalf2 => .cwHalf3
    | .ccwHalf2 => .ccwHalf1
    | .cwHalf1 => .cwHalf1
    | .cwHalf3 => .cwHalf3
    | .ccwHalf1 => .ccwHalf1
    | .ccwHalf3 => .ccwHalf3
  decode (.uop 0b0010#4) = .ok .qdStep10 ∧
  (∀ s : State, ∃ t, exec .qdStep10 s = .next t ∧
    t.regs = { s.regs with encState := next s.regs.encState } ∧ t.result = .dir none) ∧
  (∀ (r : Regs) (raw : Raw), raw.extractLsb' 0 2 = 0b10#2 → (raw.getLsbD 2 = false ∨ r.gateOpen = false) →
    (onSignal r raw).1.encState = next r.encState)

/-- R78: `QD.STEP11`, its next state and the direction it emits, and the events that reach it. -/
def Obligations.QdStep11Result : Prop :=
  let next : EncState → EncState × Option Direction := fun q =>
    match q with
    | .cwHalf1 => (.idle, none)
    | .cwHalf3 => (.idle, some .clockwise)
    | .ccwHalf1 => (.idle, none)
    | .ccwHalf3 => (.idle, some .counterClockwise)
    | .idle => (.idle, none)
    | .cwHalf2 => (.cwHalf2, none)
    | .ccwHalf2 => (.ccwHalf2, none)
  decode (.uop 0b0011#4) = .ok .qdStep11 ∧
  (∀ s : State, ∃ t, exec .qdStep11 s = .next t ∧
    t.regs = { s.regs with encState := (next s.regs.encState).1 } ∧ t.result = .dir (next s.regs.encState).2) ∧
  (∀ (r : Regs) (raw : Raw), raw.extractLsb' 0 2 = 0b11#2 → (raw.getLsbD 2 = false ∨ r.gateOpen = false) →
    (onSignal r raw).1.encState = (next r.encState).1)

/-- R90: `BG.TRYACCEPT`, the truth table, and that the dispatch calls it first with `pressed` = `raw[2]`. -/
def Obligations.BgTryAcceptResult : Prop :=
  (∀ p : Bool, decode (.uop (0b010#3 ++ BitVec.ofBool p)) = .ok (.bgTryAccept p)) ∧
  (∀ (p : Bool) (s : State), ∃ t, exec (.bgTryAccept p) s = .next t ∧
    t.regs = { s.regs with gateOpen := s.regs.gateOpen && !p } ∧
    t.result = .accepted (p && s.regs.gateOpen)) ∧
  (∀ (r : Regs) (raw : Raw), (onSignal r raw).1.gateOpen = (r.gateOpen && !raw.getLsbD 2))

/-- R91: `BG.REOPEN` opens the gate and changes nothing else; the timer event reaches it. -/
def Obligations.BgReopenResult : Prop :=
  decode (.uop 0b0110#4) = .ok .bgReopen ∧
  (∀ s : State, ∃ t, exec .bgReopen s = .next t ∧
    t.regs = { s.regs with gateOpen := true } ∧ t.result = .none) ∧
  (∀ r : Regs, (onTimer r).1 = { r with gateOpen := true })

/-- R100: `LR.MOVER`: down by one modulo 16 if the ring is on, at 0 to 15; a no-op otherwise. -/
def Obligations.LrMoverResult : Prop :=
  decode (.uop 0b1001#4) = .ok .lrMover ∧
  ∀ s : State, ∃ p : Pos, p.toNat = (s.regs.ledNum.toNat + 15) % 16 ∧
    ∃ t, exec .lrMover s = .next t ∧
      t.regs = { s.regs with ledNum := if s.regs.ledEnable then p else s.regs.ledNum } ∧
      t.result = .moved s.regs.ledEnable

/-- R101: `LR.MOVEL`: up by one modulo 16 if the ring is on, at 15 to 0; a no-op otherwise. -/
def Obligations.LrMovelResult : Prop :=
  decode (.uop 0b1010#4) = .ok .lrMovel ∧
  ∀ s : State, ∃ p : Pos, p.toNat = (s.regs.ledNum.toNat + 1) % 16 ∧
    ∃ t, exec .lrMovel s = .next t ∧
      t.regs = { s.regs with ledNum := if s.regs.ledEnable then p else s.regs.ledNum } ∧
      t.result = .moved s.regs.ledEnable

/-- R102, R103, R104: `LR.ENABLE`, `LR.DISABLE` and `LR.TOGGLE` write `led_enable` alone. -/
def Obligations.LrSwitchResults : Prop :=
  decode (.uop 0b1011#4) = .ok .lrEnable ∧ decode (.uop 0b1100#4) = .ok .lrDisable ∧
  decode (.uop 0b1101#4) = .ok .lrToggle ∧
  ∀ s : State,
    (∃ t, exec .lrEnable s = .next t ∧ t.regs = { s.regs with ledEnable := true } ∧ t.result = .none) ∧
    (∃ t, exec .lrDisable s = .next t ∧ t.regs = { s.regs with ledEnable := false } ∧ t.result = .none) ∧
    (∃ t, exec .lrToggle s = .next t ∧ t.regs = { s.regs with ledEnable := !s.regs.ledEnable } ∧ t.result = .none)

/-- R105: `LR.RENDER` changes no register; its result, and `led_mask` at all times, is `1 << led_num` if the ring is
on, else 0. -/
def Obligations.LrRenderResult : Prop :=
  decode (.uop 0b1000#4) = .ok .lrRender ∧
  ∀ s : State,
    (∃ t, exec .lrRender s = .next t ∧ t.regs = s.regs ∧
      t.result = .mask (if s.regs.ledEnable then 1#16 <<< s.regs.ledNum.toNat else 0x0000#16)) ∧
    ledMask s = if s.regs.ledEnable then 1#16 <<< s.regs.ledNum.toNat else 0x0000#16

/-- The model's choice (log entry 2): an internal operation run on its own is no clock edge, so the output registers
keep their values; and it leaves the words to come and the count of coincidences alone. -/
def Obligations.OperationsKeepTheOutputs : Prop :=
  ∀ (s : State) (p : Bool) (i : Instr),
    i ∈ [.qdStep00, .qdStep01, .qdStep10, .qdStep11, .bgTryAccept p, .bgReopen, .lrRender, .lrMover, .lrMovel,
      .lrEnable, .lrDisable, .lrToggle] →
    ∃ t, exec i s = .next t ∧ t.publish = s.publish ∧ t.armDebounce = s.armDebounce ∧ t.inputs = s.inputs ∧
      t.coincidences = s.coincidences

/-! ## Properties of the components -/

/-- R82, an inference the spec marks as its own ("presenting the same sample a second time is always a no-op"): a
repeated sample is a no-op, so the decoder's result does not depend on whether unchanged samples are presented:
dropping consecutive repeats changes neither the final state nor the directions emitted. -/
def Obligations.RepeatedSamplesAreNoOps : Prop :=
  (∀ (q : EncState) (x : Phase), qdStep (qdStep q x).1 x = ((qdStep q x).1, none)) ∧
  ∀ (q : EncState) (xs : List Phase), qdRun q (xs.destutter (· ≠ ·)) = qdRun q xs

/-- R81, an inference the spec marks as its own ("Exactly two of the 28 cells emit"): which cells emit, that an
emission leads to `Idle`, and that an emission is preceded, since the decoder last left `Idle`, by the first two and
the last two state-changing samples of its path. -/
def Obligations.EmissionNeedsTheFullPath : Prop :=
  (∀ (q : EncState) (x : Phase), (qdStep q x).2 = some .clockwise ↔ q = .cwHalf3 ∧ x = 0b11#2) ∧
  (∀ (q : EncState) (x : Phase), (qdStep q x).2 = some .counterClockwise ↔ q = .ccwHalf3 ∧ x = 0b11#2) ∧
  (∀ (q : EncState) (x : Phase), (qdStep q x).2 ≠ none → (qdStep q x).1 = .idle) ∧
  ∀ (xs : List Phase), (∀ ys, ys ≠ [] → ys <+: xs → (qdRun .idle ys).1 ≠ .idle) →
    ((qdStep (qdRun .idle xs).1 0b11#2).2 = some .clockwise →
      ∃ mid, qdChanging .idle (xs ++ [0b11#2]) = 0b01#2 :: 0b00#2 :: mid ++ [0b10#2, 0b11#2]) ∧
    ((qdStep (qdRun .idle xs).1 0b11#2).2 = some .counterClockwise →
      ∃ mid, qdChanging .idle (xs ++ [0b11#2]) = 0b10#2 :: 0b00#2 :: mid ++ [0b01#2, 0b11#2])

/-- R86, an inference the spec marks as its own ("no transition leads from a `Cw` state to a `Ccw` state or back"):
the state graph. Every state is reached from `Idle` and leads back to it by the samples R86 names, and the two paths
are joined only through `Idle`. -/
def Obligations.PathsJoinOnlyThroughIdle : Prop :=
  (∀ q : EncState, ∃ xs, (qdRun .idle xs).1 = q) ∧
  (∀ q : EncState, q = .cwHalf1 ∨ q = .cwHalf3 ∨ q = .ccwHalf1 ∨ q = .ccwHalf3 → (qdStep q 0b11#2).1 = .idle) ∧
  qdRun .cwHalf2 [0b01#2, 0b11#2] = (.idle, []) ∧ qdRun .cwHalf2 [0b10#2, 0b11#2] = (.idle, [.clockwise]) ∧
  qdRun .ccwHalf2 [0b10#2, 0b11#2] = (.idle, []) ∧ qdRun .ccwHalf2 [0b01#2, 0b11#2] = (.idle, [.counterClockwise]) ∧
  ∀ (q : EncState) (xs : List Phase), (∀ ys, ys <+: xs → (qdRun q ys).1 ≠ .idle) →
    (isCw q = true → isCw (qdRun q xs).1 = true) ∧ (isCcw q = true → isCcw (qdRun q xs).1 = true)

/-- R83, and R85, an inference the spec marks as its own ("one detent is lost and the decoder is back in step
afterwards"): the two canonical cycles from `Idle`, and clean cycles from the two mid-path rest states. -/
def Obligations.CleanCycles : Prop :=
  qdRun .idle [0b01#2, 0b00#2, 0b10#2, 0b11#2] = (.idle, [.clockwise]) ∧
  qdRun .idle [0b10#2, 0b00#2, 0b01#2, 0b11#2] = (.idle, [.counterClockwise]) ∧
  qdRun .cwHalf2 [0b01#2, 0b00#2, 0b10#2, 0b11#2] = (.idle, [.clockwise]) ∧
  qdRun .cwHalf2 [0b10#2, 0b00#2, 0b01#2, 0b11#2] = (.idle, []) ∧
  qdRun .ccwHalf2 [0b10#2, 0b00#2, 0b01#2, 0b11#2] = (.idle, [.counterClockwise]) ∧
  qdRun .ccwHalf2 [0b01#2, 0b00#2, 0b10#2, 0b11#2] = (.idle, [])

/-- R92: a press that arrives while the gate is armed leaves no trace: the event does what it would do with the
button up, in either reading of the open publish parameter. -/
def Obligations.ArmedGateIgnoresPresses : Prop :=
  ∀ (pnm : Bool) (r : Regs) (raw : Raw), r.gateOpen = false →
    onSignalWith pnm r raw = onSignalWith pnm r (raw &&& ~~~4#32) ∧ (onSignalWith pnm r raw).2.arm = false

/-- R94: `tryAccept(true)` is accepted exactly once per window, and again after `reopen()`. -/
def Obligations.OneAcceptancePerWindow : Prop :=
  ∀ (r : Regs) (before after : List Bool), r.gateOpen = true → (∀ p ∈ before, p = false) →
    (gateRun r (before ++ true :: after)).2 =
      List.replicate before.length false ++ true :: List.replicate after.length false ∧
    (bgTryAccept (bgReopen (gateRun r (before ++ true :: after)).1) true).2 = true

/-- R107: from any enabled position a move and its inverse return to the position; and, an inference the spec marks
as its own ("Sixteen `LR.MOVER` in a row, or sixteen `LR.MOVEL`, also return to the original position"), so do
sixteen moves. -/
def Obligations.MovesAreInverse : Prop :=
  ∀ r : Regs, r.ledEnable = true →
    (lrMovel (lrMover r).1).1 = r ∧ (lrMover (lrMovel r).1).1 = r ∧
    (fun x => (lrMover x).1)^[16] r = r ∧ (fun x => (lrMovel x).1)^[16] r = r

/-- R109: the rendering is 0 whenever the ring is off, and has exactly the bit of the position set whenever it is
on. -/
def Obligations.MaskIsOneHotOrZero : Prop :=
  ∀ p : Pos, lrRenderMask p false = 0#16 ∧ ∀ j : Nat, (lrRenderMask p true).getLsbD j = decide (j = p.toNat)

/-- R62, R64, R66 (what the circuit does with the code that is not a state is log entry 5): a circuit that stores
the 3-bit code computes the decoder, treats the code that is not a state as `Idle`, and never produces the code
`0b111` or the result code `0b11`. -/
def Obligations.CircuitDecoderRefines : Prop :=
  (∀ q : EncState, encOfCode? (encCode q) = some q) ∧
  (∀ (q : EncState) (x : Phase),
    circuitStep (encCode q) x = (encCode (qdStep q x).1, dirCode (qdStep q x).2)) ∧
  (∀ x : Phase, circuitStep 0b111#3 x = circuitStep 0b000#3 x) ∧
  ∀ (c : BitVec 3) (x : Phase), (circuitStep c x).1 ≠ 0b111#3 ∧ (circuitStep c x).2 ≠ 0b11#2

/-! ## Publish, arm, and what one event may write -/

/-- R127: a publish follows every accepted press, and a detent if and only if the ring is on; no other event
publishes. The other reading publishes after every detent, reaches the same registers and shows the same mask; an LED
driver's latch that shows the rendering before an event holds the same after it in both. -/
def Obligations.PublishCondition : Prop :=
  (∀ (r : Regs) (raw : Raw),
    (onSignal r raw).2.publish =
      (if raw.getLsbD 2 && r.gateOpen then some (renderRegs (onSignal r raw).1)
       else if (qdStep r.encState (raw.extractLsb' 0 2)).2.isSome && r.ledEnable then
         some (renderRegs (onSignal r raw).1)
       else none) ∧
    (onSignalWith true r raw).1 = (onSignal r raw).1 ∧
    (onSignalWith true r raw).2.arm = (onSignal r raw).2.arm ∧
    (onSignalWith true r raw).2.publish =
      (if (raw.getLsbD 2 && r.gateOpen) || (qdStep r.encState (raw.extractLsb' 0 2)).2.isSome then
         some (renderRegs (onSignal r raw).1)
       else none) ∧
    latchAfter (some (renderRegs r)) [(onSignalWith true r raw).2] =
      latchAfter (some (renderRegs r)) [(onSignal r raw).2]) ∧
  ∀ (s t : State) (i : Instr), i = .tmr ∨ i = .nop ∨ i = .rst → exec i s = .next t → t.publish = false

/-- R128: an arm request is issued by exactly those invocations of `OnSignal` that change `gate_open` from 1 to 0,
one per accepted press, and nothing else at the boundary changes `gate_open` from 1 to 0 or arms. -/
def Obligations.ArmCondition : Prop :=
  (∀ (pnm : Bool) (r : Regs) (raw : Raw),
    ((onSignalWith pnm r raw).2.arm = true ↔ r.gateOpen = true ∧ (onSignalWith pnm r raw).1.gateOpen = false) ∧
    ((onSignalWith pnm r raw).2.arm = true ↔ (bgTryAccept r (raw.getLsbD 2)).2 = true)) ∧
  (∀ r : Regs, (onTimer r).2.arm = false ∧ (onTimer r).1.gateOpen = true) ∧
  ∀ (s t : State) (i : Instr), i = .tmr ∨ i = .nop ∨ i = .rst → exec i s = .next t →
    t.armDebounce = false ∧ (s.regs.gateOpen = true → t.regs.gateOpen = true)

/-- R115 and R139: one encoder-signal event writes either the gate and the enable bit, or the decoder's state and
the position, never both sets. -/
def Obligations.OneEventOneBranch : Prop :=
  ∀ (pnm : Bool) (r : Regs) (raw : Raw),
    ((onSignalWith pnm r raw).1.encState = r.encState ∧ (onSignalWith pnm r raw).1.ledNum = r.ledNum) ∨
    ((onSignalWith pnm r raw).1.gateOpen = r.gateOpen ∧ (onSignalWith pnm r raw).1.ledEnable = r.ledEnable)

/-- R35: the decoder and the gate are independent: neither's operations read or write the other's register, a phase
event carries any gate through, and an accepted press carries any decoder state through. -/
def Obligations.DecoderAndGateIndependent : Prop :=
  (∀ (s : State) (g : Bool) (i : Instr), i = .qdStep00 ∨ i = .qdStep01 ∨ i = .qdStep10 ∨ i = .qdStep11 →
    ∃ t, exec i s = .next t ∧ t.regs.gateOpen = s.regs.gateOpen ∧
      exec i { s with regs := { s.regs with gateOpen := g } } =
        .next { t with regs := { t.regs with gateOpen := g } }) ∧
  (∀ (s : State) (q : EncState) (p : Bool) (i : Instr), i = .bgTryAccept p ∨ i = .bgReopen →
    ∃ t, exec i s = .next t ∧ t.regs.encState = s.regs.encState ∧
      exec i { s with regs := { s.regs with encState := q } } =
        .next { t with regs := { t.regs with encState := q } }) ∧
  (∀ (r : Regs) (g : Bool) (raw : Raw), raw.getLsbD 2 = false →
    (onSignal r raw).1.gateOpen = r.gateOpen ∧
    onSignal { r with gateOpen := g } raw = ({ (onSignal r raw).1 with gateOpen := g }, (onSignal r raw).2)) ∧
  (∀ (r : Regs) (q : EncState) (raw : Raw), raw.getLsbD 2 = true → r.gateOpen = true →
    (onSignal r raw).1.encState = r.encState ∧
    onSignal { r with encState := q } raw = ({ (onSignal r raw).1 with encState := q }, (onSignal r raw).2))

/-! ## The whole machine -/

/-- R21 to R24 and R34, over all 21 instructions: what may change each register, and how. -/
def Obligations.RegisterWriters : Prop :=
  ∀ (i : Instr) (s t : State), exec i s = .next t →
    (t.regs.encState ≠ s.regs.encState →
      i = .rst ∨ (∃ raw, i.raw? = some raw) ∨
      i = .qdStep00 ∨ i = .qdStep01 ∨ i = .qdStep10 ∨ i = .qdStep11) ∧
    (s.regs.gateOpen = true → t.regs.gateOpen = false →
      i = .bgTryAccept true ∨ ∃ raw, i.raw? = some raw ∧ raw.getLsbD 2 = true) ∧
    (s.regs.gateOpen = false → t.regs.gateOpen = true →
      i = .rst ∨ i = .tmr ∨ i = .bgReopen ∨ ∃ raw, i = .sigTmr raw) ∧
    (t.regs.ledNum ≠ s.regs.ledNum →
      i = .rst ∨ (s.regs.ledEnable = true ∧ (i = .lrMover ∨ i = .lrMovel ∨ ∃ raw, i.raw? = some raw))) ∧
    (t.regs.ledEnable ≠ s.regs.ledEnable →
      i = .rst ∨ i = .lrEnable ∨ i = .lrDisable ∨ i = .lrToggle ∨
      ∃ raw, i.raw? = some raw ∧ raw.getLsbD 2 = true)

/-- R108: while the ring is off nothing but reset changes the position, over all instructions. -/
def Obligations.PositionSurvivesDisable : Prop :=
  ∀ (i : Instr) (s t : State), s.regs.ledEnable = false → i ≠ .rst → exec i s = .next t →
    t.regs.ledNum = s.regs.ledNum

/-- R110, an inference the spec marks as its own ("`led_enable` changes only by `LR.TOGGLE` and by reset"): at the
boundary `led_enable` changes only by reset and by an accepted press, which pulses both outputs. -/
def Obligations.EnableChangesOnlyByPressOrReset : Prop :=
  ∀ (v : Cyc) (rest : List Input) (s t : State), s.inputs = .cyc v :: rest → step s = .next t →
    t.regs.ledEnable ≠ s.regs.ledEnable →
    v.getLsbD 34 = true ∨
      (v.getLsbD 32 = true ∧ v.getLsbD 2 = true ∧ t.publish = true ∧ t.armDebounce = true ∧
        t.regs.ledEnable = !s.regs.ledEnable)

/-- R136: an implementation must not fail on any input: if every word to come is one that the formats express, the
step answers a next state of which the same holds; and so does a run of any length. -/
def Obligations.EveryExpressibleInputIsTaken : Prop :=
  (∀ s : State, inputsExpressible s = true → ∃ t, step s = .next t ∧ inputsExpressible t = true) ∧
  ∀ (n : Nat) (s : State), inputsExpressible s = true → ∃ t, core.run n s = .next t

/-- R25, R126: an invariant that every step keeps: an arm pulse comes only together with a publish pulse. -/
def Obligations.ArmPulseComesWithPublish : Prop :=
  ∀ s t : State, (s.armDebounce = true → s.publish = true) → step s = .next t →
    (t.armDebounce = true → t.publish = true)

/-- R125 and R126, one clock cycle without reset: the registers end where the cycle's handlers take them, in some
order of a coincidence; `publish` and `arm_debounce` report their effects; and a published mask is the one
`led_mask` shows. -/
def Obligations.CycleRunsItsHandlers : Prop :=
  ∀ (v : Cyc) (rest : List Input) (s : State), s.inputs = .cyc v :: rest → v.getLsbD 34 = false →
    ∃ t order, step s = .next t ∧ t.inputs = rest ∧ t.result = s.result ∧
      t.regs = (runEvents Config.publishOnNoopMove s.regs (handlersOf order v)).1 ∧
      (t.publish = true ↔
        ∃ e ∈ (runEvents Config.publishOnNoopMove s.regs (handlersOf order v)).2, e.publish ≠ none) ∧
      (t.armDebounce = true ↔
        ∃ e ∈ (runEvents Config.publishOnNoopMove s.regs (handlersOf order v)).2, e.arm = true) ∧
      (∀ e ∈ (runEvents Config.publishOnNoopMove s.regs (handlersOf order v)).2, ∀ m, e.publish = some m →
        ledMask t = m)

/-- R6, R47 and R125: the cycle layer computes exactly what the event layer does. A run of clock cycles without
reset, from any state, ends in the registers that the left fold of the handlers reaches over some interleaving of
the notifications. -/
def Obligations.CycleLayerRefinesEventLayer : Prop :=
  ∀ (vs : List Cyc), (∀ v ∈ vs, v.getLsbD 34 = false) →
    ∀ (s : State) (rest : List Input), s.inputs = vs.map .cyc ++ rest →
      ∃ orders : List CoincidentOrder, orders.length = vs.length ∧
        ∃ t, core.run vs.length s = .next t ∧ t.inputs = rest ∧
          t.regs =
            (runEvents Config.publishOnNoopMove s.regs (List.zipWith handlersOf orders vs).flatten).1

/-! ## The collaborators -/

/-- R132, an inference the spec marks as its own ("The display follows the state"): after the first publish the LED
driver's latch holds the rendering of the registers, after every sequence of events (so for either order of a
coincidence) and in either reading of the publish parameter, whatever it held before. -/
def Obligations.DisplayFollowsState : Prop :=
  ∀ (pnm : Bool) (r : Regs) (es : List Event) (disp : Option Mask),
    (∃ e ∈ (runEvents pnm r es).2, e.publish ≠ none) →
    latchAfter disp (runEvents pnm r es).2 = some (renderRegs (runEvents pnm r es).1)

/-- R145, an inference the spec marks as its own ("it never issues an arm request while a window is running"), at the
event layer, from every state in which the gate is armed exactly while a window runs: one event, if it is an expiry only
while a window runs, keeps that, and arms only while none runs; so if the timer sends an expiry only while a window
runs, arm requests and expiries alternate. For every sequence of events, so for either order of a coincidence. That the
pulses are those of a finite sequence, in the order of the handlers' calls, is log entry 14. -/
def Obligations.BlockKeepsTimerOneShot : Prop :=
  ∀ (pnm : Bool) (r : Regs) (w : Bool), r.gateOpen = !w →
    (∀ e : Event, (e = .tmr → w = true) →
      ((handle pnm r e).2.arm = true → w = false) ∧
      (handle pnm r e).1.gateOpen = !windowAfter w (pulsesOf pnm r [e])) ∧
    ∀ es : List Event, expiriesAnswerArms w (pulsesOf pnm r es) = true → timerOneShot w (pulsesOf pnm r es) = true

/-- R145 and R146: an invariant of the block closed with the reference timer, kept by every cycle (reset included,
for every window length): the gate is armed exactly while an arm pulse, a running timer or an expiry pulse is there,
and only one of them is. -/
def Obligations.ClosedSystemWindowMatchesGate : Prop :=
  ∀ (ticks : Nat) (e : EnvInput) (y : System), windowMatchesGate y = true →
    ∃ z, systemStep ticks e y = .next z ∧ windowMatchesGate z = true

/-- R132, R147: an invariant of the closed system that every cycle without reset keeps: the LED driver's latch
follows the registers. (Reset changes the registers and publishes nothing, R161; log entry 9.) -/
def Obligations.ClosedSystemDisplayFollows : Prop :=
  ∀ (ticks : Nat) (e : EnvInput) (y : System), e.rst = false → displayFollows y = true →
    ∃ z, systemStep ticks e y = .next z ∧ displayFollows z = true

/-- R146: the window of the reference timer. From a cycle with the arm pulse, whatever the environment presents (but
reset), the gate is armed and no expiry comes for `DEBOUNCE_TICKS` cycles more, the expiry pulse stands in the cycle
after, and, with no encoder event in that cycle, the gate is open in the next. -/
def Obligations.ReferenceTimerWindow : Prop :=
  ∀ (ticks : Nat) (y : System) (es : List EnvInput), 1 ≤ ticks → windowMatchesGate y = true →
    y.block.armDebounce = true → (∀ e ∈ es, e.rst = false) →
    (es.length ≤ ticks → ∃ z, systemRun ticks es y = .next z ∧
      z.block.regs.gateOpen = false ∧ z.timer.expired = false ∧
      z.block.regs.ledEnable = y.block.regs.ledEnable) ∧
    (es.length = ticks + 1 → ∃ z, systemRun ticks es y = .next z ∧
      z.block.regs.gateOpen = false ∧ z.timer.expired = true ∧
      ∀ raw, ∃ w, systemStep ticks { rst := false, sigValid := false, raw := raw } z = .next w ∧
        w.block.regs.gateOpen = true ∧ w.block.regs = { z.block.regs with gateOpen := true })

/-- R145, the same inference of the spec ("it never issues an arm request while a window is running"), in the cycle layer
with a free timer, for the pulses at the ports: from every state in which the gate is armed exactly while a window runs or
the arm pulse stands, over any number of cycles without reset (reset opens the gate with no expiry, R165): if an expiry
comes only while a window runs, the pulses alternate, and the gate is armed exactly while a window runs. An expiry with
no window running, such as one in the cycle of a press that the open gate accepts, breaks the premise. That the pulses
are those of a finite run, and how they are ordered within a cycle, is log entry 14. -/
def Obligations.BlockKeepsTimerOneShotAtPorts : Prop :=
  (∀ (n : Nat) (s : State) (w : Bool),
    (∀ i ∈ s.inputs, ∃ v : Cyc, i = .cyc v ∧ v.getLsbD 34 = false) →
    s.regs.gateOpen = !(w || s.armDebounce) → (s.armDebounce = true → w = false) →
    expiriesAnswerArms w (portPulses n s) = true →
      timerOneShot w (portPulses n s) = true ∧
      ∃ t, core.run n s = .next t ∧ t.regs.gateOpen = !windowAfter w (portPulses n s)) ∧
  ∀ (n : Nat) (s : State), s.armDebounce = false → expiryPresented s = true →
    expiriesAnswerArms false (portPulses (n + 1) s) = false
end

