-- ==== Sys2Proof/Laws/State.lean ====
section
/-!
SUPPORT. One lemma per field per update: what each shared operation leaves in each field of State, and what each
component's register update leaves in each register. All hold by rfl.
-/

namespace Sys2Proof.Machine

@[simp] theorem clockEdge_regs (s : State) (o : Regs × Effect) : (clockEdge s o).regs = o.1 := rfl
@[simp] theorem clockEdge_publish (s : State) (o : Regs × Effect) : (clockEdge s o).publish = o.2.publish.isSome := rfl
@[simp] theorem clockEdge_armDebounce (s : State) (o : Regs × Effect) : (clockEdge s o).armDebounce = o.2.arm := rfl
@[simp] theorem clockEdge_inputs (s : State) (o : Regs × Effect) : (clockEdge s o).inputs = s.inputs := rfl
@[simp] theorem clockEdge_result (s : State) (o : Regs × Effect) : (clockEdge s o).result = s.result := rfl
@[simp] theorem clockEdge_coincidences (s : State) (o : Regs × Effect) : (clockEdge s o).coincidences = s.coincidences := rfl

@[simp] theorem returnFrom_regs (s : State) (r : Regs) (res : Result) : (returnFrom s r res).regs = r := rfl
@[simp] theorem returnFrom_publish (s : State) (r : Regs) (res : Result) : (returnFrom s r res).publish = s.publish := rfl
@[simp] theorem returnFrom_armDebounce (s : State) (r : Regs) (res : Result) : (returnFrom s r res).armDebounce = s.armDebounce := rfl
@[simp] theorem returnFrom_inputs (s : State) (r : Regs) (res : Result) : (returnFrom s r res).inputs = s.inputs := rfl
@[simp] theorem returnFrom_result (s : State) (r : Regs) (res : Result) : (returnFrom s r res).result = res := rfl
@[simp] theorem returnFrom_coincidences (s : State) (r : Regs) (res : Result) : (returnFrom s r res).coincidences = s.coincidences := rfl

@[simp] theorem consume_regs (s : State) : (consume s).regs = s.regs := rfl
@[simp] theorem consume_publish (s : State) : (consume s).publish = s.publish := rfl
@[simp] theorem consume_armDebounce (s : State) : (consume s).armDebounce = s.armDebounce := rfl
@[simp] theorem consume_inputs (s : State) : (consume s).inputs = s.inputs.tail := rfl
@[simp] theorem consume_result (s : State) : (consume s).result = s.result := rfl
@[simp] theorem consume_coincidences (s : State) : (consume s).coincidences = s.coincidences := rfl

@[simp] theorem present_regs (s : State) (i : Input) : (present s i).regs = s.regs := rfl
@[simp] theorem present_publish (s : State) (i : Input) : (present s i).publish = s.publish := rfl
@[simp] theorem present_armDebounce (s : State) (i : Input) : (present s i).armDebounce = s.armDebounce := rfl
@[simp] theorem present_inputs (s : State) (i : Input) : (present s i).inputs = i :: s.inputs.tail := rfl
@[simp] theorem present_result (s : State) (i : Input) : (present s i).result = s.result := rfl
@[simp] theorem present_coincidences (s : State) (i : Input) : (present s i).coincidences = s.coincidences := rfl

@[simp] theorem bgReopen_encState (r : Regs) : (bgReopen r).encState = r.encState := rfl
@[simp] theorem bgReopen_gateOpen (r : Regs) : (bgReopen r).gateOpen = true := rfl
@[simp] theorem bgReopen_ledNum (r : Regs) : (bgReopen r).ledNum = r.ledNum := rfl
@[simp] theorem bgReopen_ledEnable (r : Regs) : (bgReopen r).ledEnable = r.ledEnable := rfl

@[simp] theorem lrEnable_encState (r : Regs) : (lrEnable r).encState = r.encState := rfl
@[simp] theorem lrEnable_gateOpen (r : Regs) : (lrEnable r).gateOpen = r.gateOpen := rfl
@[simp] theorem lrEnable_ledNum (r : Regs) : (lrEnable r).ledNum = r.ledNum := rfl
@[simp] theorem lrEnable_ledEnable (r : Regs) : (lrEnable r).ledEnable = true := rfl

@[simp] theorem lrDisable_encState (r : Regs) : (lrDisable r).encState = r.encState := rfl
@[simp] theorem lrDisable_gateOpen (r : Regs) : (lrDisable r).gateOpen = r.gateOpen := rfl
@[simp] theorem lrDisable_ledNum (r : Regs) : (lrDisable r).ledNum = r.ledNum := rfl
@[simp] theorem lrDisable_ledEnable (r : Regs) : (lrDisable r).ledEnable = false := rfl

@[simp] theorem lrToggle_encState (r : Regs) : (lrToggle r).encState = r.encState := rfl
@[simp] theorem lrToggle_gateOpen (r : Regs) : (lrToggle r).gateOpen = r.gateOpen := rfl
@[simp] theorem lrToggle_ledNum (r : Regs) : (lrToggle r).ledNum = r.ledNum := rfl
@[simp] theorem lrToggle_ledEnable (r : Regs) : (lrToggle r).ledEnable = !r.ledEnable := rfl

end Sys2Proof.Machine
end

