-- ==== Sys2Proof/Laws/Words.lean ====
section
/-!
SUPPORT. The fields of the vectors that the encoder builds, read back: what the decoder sees of them.
-/

namespace Sys2Proof

open Machine

/-- A vector whose low 32 bits are clear carries the `raw` it is or-ed with. -/
theorem cycRaw_or (k : Cyc) (raw : Raw) (h : k.extractLsb' 0 32 = 0#32) :
    cycRaw (k ||| raw.setWidth 35) = raw := by
  ext i hi
  have h35 : i < 35 := by omega
  have hk : k[i] = false := by
    rw [← BitVec.getLsbD_eq_getElem]
    simpa [hi] using congrArg (fun x : BitVec 32 => x.getLsbD i) h
  simp [cycRaw, hk, h35, BitVec.getLsbD_eq_getElem hi]

@[simp] theorem cycRst_sigVector (raw : Raw) : cycRst (sigVector raw) = false := by
  simp [cycRst, sigVector]

@[simp] theorem cycTmr_sigVector (raw : Raw) : cycTmr (sigVector raw) = false := by
  simp [cycTmr, sigVector]

@[simp] theorem cycSig_sigVector (raw : Raw) : cycSig (sigVector raw) = true := by
  simp [cycSig, sigVector]

@[simp] theorem cycRaw_sigVector (raw : Raw) : cycRaw (sigVector raw) = raw :=
  cycRaw_or _ raw (by decide)

@[simp] theorem cycRst_sigTmrVector (raw : Raw) : cycRst (sigTmrVector raw) = false := by
  simp [cycRst, sigTmrVector]

@[simp] theorem cycTmr_sigTmrVector (raw : Raw) : cycTmr (sigTmrVector raw) = true := by
  simp [cycTmr, sigTmrVector]

@[simp] theorem cycSig_sigTmrVector (raw : Raw) : cycSig (sigTmrVector raw) = true := by
  simp [cycSig, sigTmrVector]

@[simp] theorem cycRaw_sigTmrVector (raw : Raw) : cycRaw (sigTmrVector raw) = raw :=
  cycRaw_or _ raw (by decide)

@[simp] theorem cycRst_cycVector (rst tmr sig : Bool) (raw : Raw) :
    cycRst (cycVector rst tmr sig raw) = rst := by
  cases rst <;> cases tmr <;> cases sig <;> simp [cycRst, cycVector]

@[simp] theorem cycTmr_cycVector (rst tmr sig : Bool) (raw : Raw) :
    cycTmr (cycVector rst tmr sig raw) = tmr := by
  cases rst <;> cases tmr <;> cases sig <;> simp [cycTmr, cycVector]

@[simp] theorem cycSig_cycVector (rst tmr sig : Bool) (raw : Raw) :
    cycSig (cycVector rst tmr sig raw) = sig := by
  cases rst <;> cases tmr <;> cases sig <;> simp [cycSig, cycVector]

@[simp] theorem cycRaw_cycVector (rst tmr sig : Bool) (raw : Raw) :
    cycRaw (cycVector rst tmr sig raw) = raw := by
  cases rst <;> cases tmr <;> cases sig <;> exact cycRaw_or _ raw (by decide)

/-- The operand `button` is `raw[2]` (30_encoding.md R57). -/
theorem button_eq (raw : Raw) : button raw = raw[2] := by
  simp [button]

/-- The operand `phase` is `raw[1:0]` (30_encoding.md R57): its upper bit. -/
@[simp] theorem phase_upper (raw : Raw) : (phase raw)[1] = raw[1] := by
  simp [phase]

/-- The operand `phase` is `raw[1:0]` (30_encoding.md R57): its lower bit. -/
@[simp] theorem phase_lower (raw : Raw) : (phase raw)[0] = raw[0] := by
  simp [phase]

/-- A phase is its two bits, in the order the sample labels are written. -/
theorem phase_eq_iff (x y : Phase) : x = y ↔ x[1] = y[1] ∧ x[0] = y[0] := by
  constructor
  · rintro rfl
    exact ⟨rfl, rfl⟩
  · intro h
    ext i hi
    obtain rfl | rfl : i = 0 ∨ i = 1 := by omega
    · exact h.2
    · exact h.1

/-- The decoder on an encoder-signal vector (30_encoding.md R60). -/
theorem decodeCyc_sigVector (raw : Raw) :
    decodeCyc (sigVector raw) =
      if button raw then .sigBtn raw
      else
        match raw.getLsbD 1, raw.getLsbD 0 with
        | false, false => .sigP00 raw
        | false, true => .sigP01 raw
        | true, false => .sigP10 raw
        | true, true => .sigP11 raw := by
  simp only [decodeCyc, cycRst_sigVector, cycTmr_sigVector, cycSig_sigVector, cycRaw_sigVector]
  rfl

/-- The decoder on a coincidence vector (30_encoding.md R60). -/
theorem decodeCyc_sigTmrVector (raw : Raw) : decodeCyc (sigTmrVector raw) = .sigTmr raw := by
  simp [decodeCyc]

end Sys2Proof
end

