-- ==== Sys2Proof/Laws/Ops.lean ====
section
/-!
SUPPORT. One spec lemma per shared operation, saying once everything it can do; the proofs cite these instead of
unfolding the operations.
-/

namespace Sys2Proof.Machine

/-! ### The button gate -/

theorem bgTryAccept_accepted {r : Regs} {p : Bool} (h : (p && r.gateOpen) = true) :
    bgTryAccept r p = ({ r with gateOpen := false }, true) := by
  simp [bgTryAccept, acceptsPress, h]

theorem bgTryAccept_ignored {r : Regs} {p : Bool} (h : (p && r.gateOpen) = false) :
    bgTryAccept r p = (r, false) := by
  simp [bgTryAccept, acceptsPress, h]

/-! ### The LED ring -/

theorem lrMover_on {r : Regs} (h : r.ledEnable = true) :
    lrMover r = ({ r with ledNum := r.ledNum - 1#4 }, true) := by
  simp [lrMover, movesCursor, h]

theorem lrMover_off {r : Regs} (h : r.ledEnable = false) : lrMover r = (r, false) := by
  simp [lrMover, movesCursor, h]

theorem lrMovel_on {r : Regs} (h : r.ledEnable = true) :
    lrMovel r = ({ r with ledNum := r.ledNum + 1#4 }, true) := by
  simp [lrMovel, movesCursor, h]

theorem lrMovel_off {r : Regs} (h : r.ledEnable = false) : lrMovel r = (r, false) := by
  simp [lrMovel, movesCursor, h]

/-- What a move for a direction can do: it writes the position alone, only while the ring is on, and reports whether it
did; an unmoved state is unchanged. -/
theorem moveFor_cases (dir : Option Direction) (r : Regs) :
    (moveFor dir r = (r, false) ∧ (dir = none ∨ r.ledEnable = false)) ∨
    ((∃ p, (moveFor dir r).1 = { r with ledNum := p }) ∧ (moveFor dir r).2 = true ∧
      dir ≠ none ∧ r.ledEnable = true) := by
  cases hl : r.ledEnable <;> rcases dir with _ | d <;> try cases d
  all_goals simp [moveFor, lrMover, lrMovel, movesCursor, hl]

/-! ### The handlers -/

theorem onSignalWith_accepted {pnm : Bool} {r : Regs} {raw : Raw} (h : (button raw && r.gateOpen) = true) :
    onSignalWith pnm r raw =
      ({ r with gateOpen := false, ledEnable := !r.ledEnable },
       { publish := some (lrRenderMask r.ledNum (!r.ledEnable)), arm := true }) := by
  simp [onSignalWith, bgTryAccept_accepted h, pressBranch, lrToggle, renderRegs]

theorem onSignalWith_ignored {pnm : Bool} {r : Regs} {raw : Raw} (h : (button raw && r.gateOpen) = false) :
    onSignalWith pnm r raw = phaseBranch pnm r (phase raw) := by
  simp [onSignalWith, bgTryAccept_ignored h]

/-- What the phase branch can do: the decoder's state takes its step; the position may change, only while the ring is on
and a direction was decoded; a publish carries the rendering of the registers it leaves; nothing is armed. -/
theorem phaseBranch_spec (pnm : Bool) (r : Regs) (x : Phase) :
    ∃ p, (phaseBranch pnm r x).1 = { r with encState := (qdStep r.encState x).1, ledNum := p } ∧
      (p ≠ r.ledNum → r.ledEnable = true ∧ (qdStep r.encState x).2 ≠ none) ∧
      (phaseBranch pnm r x).2.arm = false ∧
      (phaseBranch pnm r x).2.publish =
        if (qdStep r.encState x).2.isSome && (r.ledEnable || pnm) then
          some (renderRegs (phaseBranch pnm r x).1) else none := by
  simp only [phaseBranch]
  generalize qdStep r.encState x = qd
  obtain ⟨q, d⟩ := qd
  refine ⟨(moveFor d { r with encState := q }).1.ledNum, ?_⟩
  cases hl : r.ledEnable <;> rcases d with _ | (_ | _) <;>
    simp [moveFor, lrMover, lrMovel, movesCursor, publishesMove]

theorem onBothWith_sigFirst (pnm : Bool) (r : Regs) (raw : Raw) :
    onBothWith pnm .sigFirst r raw =
      ({ (onSignalWith pnm r raw).1 with gateOpen := true }, (onSignalWith pnm r raw).2) := rfl

theorem onBothWith_tmrFirst (pnm : Bool) (r : Regs) (raw : Raw) :
    onBothWith pnm .tmrFirst r raw = onSignalWith pnm { r with gateOpen := true } raw := rfl

/-! ### The step -/

theorem presented_cons {s : State} {i : Input} {rest : List Input} (h : s.inputs = i :: rest) :
    presented s = i := by
  simp [presented, h]

theorem consume_cons {s : State} {i : Input} {rest : List Input} (h : s.inputs = i :: rest) :
    consume s = { s with inputs := rest } := by
  simp [consume, h]

theorem step_of_decode {s : State} {i : Instr} (h : decode (presented s) = .ok i) :
    step s = exec i (consume s) := by
  simp [step, h]

theorem step_of_error {s : State} {e : DecodeError} (h : decode (presented s) = .error e) :
    step s = .refused (refusalOf e) := by
  simp [step, h]

/-- No instruction stops: `exec` answers a next state on every instruction in every state (60_exceptions.md R136), and it
leaves the words to come alone. -/
theorem exec_next (i : Instr) (s : State) : ∃ t, exec i s = .next t ∧ t.inputs = s.inputs := by
  cases i <;> exact ⟨_, rfl, rfl⟩

end Sys2Proof.Machine
end

