-- ==== Sys2Proof/Laws/PerInstr.lean ====
section
/-!
SUPPORT. The family RowOf: the encoding of a well-formed instruction carries what its row of the tables fixes (for an
event the row's match under its mask, 30_encoding.md R60; for an operation the leading bits of its index, R61).
-/

namespace Sys2Proof.Laws.RowOf

open Sys2Proof.Machine

/-- Whether the encoding of an event matches the row of its mnemonic, and an operation has no row among the events. -/
def rowCheck (i : Instr) : Bool :=
  match encode i with
  | .cyc w => cycRows.any fun row => row.mnemonic == i.mnemonic && row.matchesVector w
  | .uop _ => cycRows.all fun row => row.mnemonic != i.mnemonic
  | .stray _ _ => false

/-- The encoding of a well-formed instruction carries what its row fixes. -/
def Statement (i : Instr) : Prop := wellFormed i = true → rowCheck i = true

/-- An encoder-signal vector under the mask of the `SIG` rows: the strobe and the low three bits of `raw`. -/
theorem sigVector_masked (raw : Raw) :
    sigVector raw &&& 0x700000007#35 = 0x100000000#35 ||| (raw.setWidth 35 &&& 0x7#35) := by
  ext i hi
  have hi' : i < 35 := hi
  interval_cases i <;> simp [sigVector]

/-- An operand that a `SIG.Ppp` row admits has the low three bits `0pp`. -/
theorem low_bits_of_phaseSample {raw : Raw} {x : Phase} (h : isPhaseSample raw x = true) :
    raw.setWidth 35 &&& 0x7#35 = x.setWidth 35 := by
  obtain ⟨hb, rfl⟩ : button raw = false ∧ phase raw = x := by simpa [isPhaseSample] using h
  ext i hi
  have hi' : i < 35 := hi
  interval_cases i <;> simp_all [button, phase]

theorem rst : Statement .rst := fun _ => by decide
theorem nop : Statement .nop := fun _ => by decide
theorem tmr : Statement .tmr := fun _ => by decide

theorem sigP00 (raw : Raw) : Statement (.sigP00 raw) := fun h => by
  simp [rowCheck, encode, cycRows, CycRow.matchesVector, Instr.mnemonic, sigVector_masked, low_bits_of_phaseSample h]

theorem sigP01 (raw : Raw) : Statement (.sigP01 raw) := fun h => by
  simp [rowCheck, encode, cycRows, CycRow.matchesVector, Instr.mnemonic, sigVector_masked, low_bits_of_phaseSample h]

theorem sigP10 (raw : Raw) : Statement (.sigP10 raw) := fun h => by
  simp [rowCheck, encode, cycRows, CycRow.matchesVector, Instr.mnemonic, sigVector_masked, low_bits_of_phaseSample h]

theorem sigP11 (raw : Raw) : Statement (.sigP11 raw) := fun h => by
  simp [rowCheck, encode, cycRows, CycRow.matchesVector, Instr.mnemonic, sigVector_masked, low_bits_of_phaseSample h]

theorem sigBtn (raw : Raw) : Statement (.sigBtn raw) := fun h => by
  have hm : sigVector raw &&& 0x700000004#35 = 0x100000004#35 := by
    have hb : raw.getLsbD 2 = true := h
    ext i hi
    have hi' : i < 35 := hi
    interval_cases i <;> simp_all [sigVector]
  simp [rowCheck, encode, cycRows, CycRow.matchesVector, Instr.mnemonic, hm]

theorem sigTmr (raw : Raw) : Statement (.sigTmr raw) := fun _ => by
  have hm : sigTmrVector raw &&& 0x700000000#35 = 0x300000000#35 := by
    ext i hi
    have hi' : i < 35 := hi
    interval_cases i <;> simp [sigTmrVector]
  simp [rowCheck, encode, cycRows, CycRow.matchesVector, Instr.mnemonic, hm]

theorem qdStep00 : Statement .qdStep00 := fun _ => by decide
theorem qdStep01 : Statement .qdStep01 := fun _ => by decide
theorem qdStep10 : Statement .qdStep10 := fun _ => by decide
theorem qdStep11 : Statement .qdStep11 := fun _ => by decide
theorem bgTryAccept (pressed : Bool) : Statement (.bgTryAccept pressed) := fun _ => by cases pressed <;> decide
theorem bgReopen : Statement .bgReopen := fun _ => by decide
theorem lrRender : Statement .lrRender := fun _ => by decide
theorem lrMover : Statement .lrMover := fun _ => by decide
theorem lrMovel : Statement .lrMovel := fun _ => by decide
theorem lrEnable : Statement .lrEnable := fun _ => by decide
theorem lrDisable : Statement .lrDisable := fun _ => by decide
theorem lrToggle : Statement .lrToggle := fun _ => by decide

end Sys2Proof.Laws.RowOf
end

