-- ==== Sys2Proof/Laws/Pulses.lean ====
section
/-!
SUPPORT. The pulses that the timer and the block exchange (60_exceptions.md R145): the contract over a sequence put together
from two, and the pulses of a run step by step.
-/

namespace Sys2Proof.Machine

@[simp] theorem windowAfter_nil (w : Bool) : windowAfter w [] = w := rfl
@[simp] theorem windowAfter_arm (w : Bool) (ps : List Pulse) : windowAfter w (.arm :: ps) = windowAfter true ps := rfl
@[simp] theorem windowAfter_expiry (w : Bool) (ps : List Pulse) :
    windowAfter w (.expiry :: ps) = windowAfter false ps := rfl

theorem windowAfter_append (w : Bool) (ps qs : List Pulse) :
    windowAfter w (ps ++ qs) = windowAfter (windowAfter w ps) qs := by
  induction ps generalizing w with
  | nil => rfl
  | cons p ps ih => cases p <;> exact ih _

theorem timerOneShot_append (w : Bool) (ps qs : List Pulse) :
    timerOneShot w (ps ++ qs) = (timerOneShot w ps && timerOneShot (windowAfter w ps) qs) := by
  induction ps generalizing w with
  | nil => simp [timerOneShot]
  | cons p ps ih => cases p <;> simp [timerOneShot, ih, Bool.and_assoc]

theorem expiriesAnswerArms_append (w : Bool) (ps qs : List Pulse) :
    expiriesAnswerArms w (ps ++ qs) = (expiriesAnswerArms w ps && expiriesAnswerArms (windowAfter w ps) qs) := by
  induction ps generalizing w with
  | nil => simp [expiriesAnswerArms]
  | cons p ps ih => cases p <;> simp [expiriesAnswerArms, ih, Bool.and_assoc]

/-- The contract holds the timer to its half. -/
theorem expiriesAnswerArms_of_timerOneShot {w : Bool} {ps : List Pulse} (h : timerOneShot w ps = true) :
    expiriesAnswerArms w ps = true := by
  induction ps generalizing w with
  | nil => rfl
  | cons p ps ih =>
    cases p <;> simp only [timerOneShot, expiriesAnswerArms, Bool.and_eq_true] at h ⊢
    · exact ih h.2
    · exact ⟨h.1, ih h.2⟩

@[simp] theorem portPulses_zero (s : State) : portPulses 0 s = armPulse s := rfl

theorem portPulses_succ_of_next {n : Nat} {s t : State} (h : step s = .next t) :
    portPulses (n + 1) s =
      armPulse s ++ (if expiryPresented s then [.expiry] else []) ++ portPulses n t := by
  simp [portPulses, h]

theorem expiryPresented_cons {s : State} {v : Cyc} {rest : List Input} (h : s.inputs = .cyc v :: rest) :
    expiryPresented s = cycTmr v := by
  simp [expiryPresented, presented_cons h]

theorem expiryPresented_nil {s : State} (h : s.inputs = []) : expiryPresented s = false := by
  simp [expiryPresented, presented, h, cycTmr]

end Sys2Proof.Machine
end

