-- ==== Sys2Proof/Tests/Slice0.lean ====
section
/-!
SUPPORT. Tests: the well-formedness smoke test, a word of the spec's encoding for every constructor, small vectors of
spec/95_test_vectors.md (its section is named at each), and a witness for each statement with hypotheses.
-/

namespace Sys2Proof.Tests.Slice0

open Sys2Proof Sys2Proof.Machine

/-! ## Well-formedness refuses what a row does not admit -/

theorem test_sigP00_refuses_button : wellFormed (.sigP00 0b100#32) = false := by decide
theorem test_sigP00_refuses_phase : wellFormed (.sigP00 0b001#32) = false := by decide
theorem test_sigP01_refuses_button : wellFormed (.sigP01 0b101#32) = false := by decide
theorem test_sigP01_refuses_phase : wellFormed (.sigP01 0b010#32) = false := by decide
theorem test_sigP10_refuses_button : wellFormed (.sigP10 0b110#32) = false := by decide
theorem test_sigP10_refuses_phase : wellFormed (.sigP10 0b001#32) = false := by decide
theorem test_sigP11_refuses_button : wellFormed (.sigP11 0b111#32) = false := by decide
theorem test_sigP11_refuses_phase : wellFormed (.sigP11 0b010#32) = false := by decide
theorem test_sigBtn_refuses_released : wellFormed (.sigBtn 0xFFFFFFFB#32) = false := by decide

/-! ## A word of each row, written from the tables of 30_encoding.md R60 and R61

The events are written as `{rst, tmr_expired, sig_valid, raw}` (R59), the operations by their index. -/

theorem test_decode_rst : decode (.cyc (1#1 ++ 0#1 ++ 0#1 ++ 0x00000000#32)) = .ok .rst := by rfl
theorem test_decode_rst_overrides : decode (.cyc (1#1 ++ 1#1 ++ 1#1 ++ 0x00000004#32)) = .ok .rst := by rfl
theorem test_decode_nop : decode (.cyc (0#1 ++ 0#1 ++ 0#1 ++ 0xFFFFFFFF#32)) = .ok .nop := by rfl
theorem test_decode_tmr : decode (.cyc (0#1 ++ 1#1 ++ 0#1 ++ 0x00000007#32)) = .ok .tmr := by rfl
theorem test_decode_sigP00 : decode (.cyc (0#1 ++ 0#1 ++ 1#1 ++ 0x00000000#32)) = .ok (.sigP00 0x00000000#32) := by rfl
theorem test_decode_sigP01 : decode (.cyc (0#1 ++ 0#1 ++ 1#1 ++ 0xFFFFFFF9#32)) = .ok (.sigP01 0xFFFFFFF9#32) := by rfl
theorem test_decode_sigP10 : decode (.cyc (0#1 ++ 0#1 ++ 1#1 ++ 0x00000002#32)) = .ok (.sigP10 0x00000002#32) := by rfl
theorem test_decode_sigP11 : decode (.cyc (0#1 ++ 0#1 ++ 1#1 ++ 0x80000003#32)) = .ok (.sigP11 0x80000003#32) := by rfl
theorem test_decode_sigBtn : decode (.cyc (0#1 ++ 0#1 ++ 1#1 ++ 0xDEADBEEC#32)) = .ok (.sigBtn 0xDEADBEEC#32) := by rfl
theorem test_decode_sigTmr : decode (.cyc (0#1 ++ 1#1 ++ 1#1 ++ 0x00000007#32)) = .ok (.sigTmr 0x00000007#32) := by rfl
theorem test_decode_qdStep00 : decode (.uop 0b0000#4) = .ok .qdStep00 := by rfl
theorem test_decode_qdStep01 : decode (.uop 0b0001#4) = .ok .qdStep01 := by rfl
theorem test_decode_qdStep10 : decode (.uop 0b0010#4) = .ok .qdStep10 := by rfl
theorem test_decode_qdStep11 : decode (.uop 0b0011#4) = .ok .qdStep11 := by rfl
theorem test_decode_bgTryAccept_up : decode (.uop 0b0100#4) = .ok (.bgTryAccept false) := by rfl
theorem test_decode_bgTryAccept_down : decode (.uop 0b0101#4) = .ok (.bgTryAccept true) := by rfl
theorem test_decode_bgReopen : decode (.uop 0b0110#4) = .ok .bgReopen := by rfl
theorem test_decode_lrRender : decode (.uop 0b1000#4) = .ok .lrRender := by rfl
theorem test_decode_lrMover : decode (.uop 0b1001#4) = .ok .lrMover := by rfl
theorem test_decode_lrMovel : decode (.uop 0b1010#4) = .ok .lrMovel := by rfl
theorem test_decode_lrEnable : decode (.uop 0b1011#4) = .ok .lrEnable := by rfl
theorem test_decode_lrDisable : decode (.uop 0b1100#4) = .ok .lrDisable := by rfl
theorem test_decode_lrToggle : decode (.uop 0b1101#4) = .ok .lrToggle := by rfl

/-- The table's bits in whole bytes: 5 bytes for an event, 1 for an operation. -/
theorem test_decodeTableWord_event : decodeTableWord 40 0x100000001 = some (.sigP01 1#32) := by decide
theorem test_decodeTableWord_operation : decodeTableWord 8 0b1101 = some .lrToggle := by decide
theorem test_decodeTableWord_reserved : decodeTableWord 8 0b0111 = none := by decide
theorem test_decodeTableWord_too_wide : decodeTableWord 40 0x800000000 = none := by decide
theorem test_withFetchWord_runs_first :
    step (State.reset.withFetchWord 40 0x100000001) = exec (.sigP01 1#32) State.reset := by rfl

/-! ## Vectors of spec/95_test_vectors.md -/

/-- The four registers as the vectors write them. -/
def four (q : EncState) (g : Bool) (n : Pos) (e : Bool) : Regs :=
  { encState := q, gateOpen := g, ledNum := n, ledEnable := e }

/-- Some state with the given registers that is presented one word; the outputs start high, so that a step is seen to
clear them. -/
def given (r : Regs) (i : Input) : State :=
  { regs := r, publish := true, armDebounce := true, inputs := [i], result := .none, coincidences := 0 }

/-- The registers and the two output registers after one step, if it answers a next state. -/
def outcome (s : State) : Option (Regs × Bool × Bool) :=
  match step s with
  | .next t => some (t.regs, t.publish, t.armDebounce)
  | .fault _ => none
  | .refused _ => none

/-- The registers and the result after one step, if it answers a next state. -/
def returned (s : State) : Option (Regs × Result) :=
  match step s with
  | .next t => some (t.regs, t.result)
  | .fault _ => none
  | .refused _ => none

/-- Section 5.4, row 5. -/
theorem test_rst : outcome (given (four .ccwHalf3 false 11#4 false) (.cyc 0x400000000#35)) =
    some (four .idle true 0#4 true, false, false) := by decide

/-- Section 5.4: `RST` with the strobes also high. -/
theorem test_rst_over_strobes : outcome (given (four .ccwHalf3 false 11#4 false) (.cyc 0x700000004#35)) =
    some (four .idle true 0#4 true, false, false) := by decide

/-- Section 5.4, row 4. -/
theorem test_nop : outcome (given (four .cwHalf2 false 9#4 false) (.cyc 0x000000000#35)) =
    some (four .cwHalf2 false 9#4 false, false, false) := by decide

/-- Section 5.4, row 3. -/
theorem test_tmr : outcome (given (four .ccwHalf2 false 12#4 true) (.cyc 0x200000000#35)) =
    some (four .ccwHalf2 true 12#4 true, false, false) := by decide

/-- Section 5.1, the row of `CcwHalf3` and `SIG 0b000`. -/
theorem test_sigP00 : outcome (given (four .ccwHalf3 true 0#4 true) (.cyc 0x100000000#35)) =
    some (four .ccwHalf2 true 0#4 true, false, false) := by decide

/-- Section 5.3, row 2. -/
theorem test_sigP01 : outcome (given (four .idle true 0#4 true) (.cyc 0x1FFFFFFF9#35)) =
    some (four .cwHalf1 true 0#4 true, false, false) := by decide

/-- Section 5.1, the row of `CwHalf2` and `SIG 0b010`. -/
theorem test_sigP10 : outcome (given (four .cwHalf2 true 0#4 true) (.cyc 0x100000002#35)) =
    some (four .cwHalf3 true 0#4 true, false, false) := by decide

/-- Section 5.3, row 6 (and S10: the wrap at 0). -/
theorem test_sigP11_clockwise : outcome (given (four .cwHalf3 true 0#4 true) (.cyc 0x180000003#35)) =
    some (four .idle true 15#4 true, true, false) := by decide

/-- Program P5, line 13: counter-clockwise with the gate armed. -/
theorem test_sigP11_counterClockwise : outcome (given (four .ccwHalf3 false 4#4 true) (.cyc 0x100000003#35)) =
    some (four .idle false 5#4 true, true, false) := by decide

/-- Section 5.2, row 2: a press drops the phase. -/
theorem test_sigBtn_accepted : outcome (given (four .cwHalf3 true 5#4 true) (.cyc 0x100000005#35)) =
    some (four .cwHalf3 false 5#4 false, true, true) := by decide

/-- Section 5.2, row 8: with the gate armed the phase is decoded. -/
theorem test_sigBtn_ignored : outcome (given (four .cwHalf3 false 5#4 true) (.cyc 0x100000007#35)) =
    some (four .idle false 4#4 true, true, false) := by decide

/-- Section 5.5, row 6, both orders. -/
theorem test_sigTmr_both_orders :
    onBoth .sigFirst (four .cwHalf3 false 5#4 true) 0b111#32 =
      (four .idle true 4#4 true, { publish := some 0x0010#16, arm := false }) ∧
    onBoth .tmrFirst (four .cwHalf3 false 5#4 true) 0b111#32 =
      (four .cwHalf3 false 5#4 false, { publish := some 0x0000#16, arm := true }) := by decide

/-- Section 5.5, row 1: the orders agree, so the step's outcome is known. -/
theorem test_sigTmr_step : outcome (given (four .cwHalf3 false 0#4 true) (.cyc 0x300000003#35)) =
    some (four .idle true 15#4 true, true, false) := by
  have h : ∀ order, onBoth order (four .cwHalf3 false 0#4 true) 0b011#32 =
      (four .idle true 15#4 true, { publish := some 0x8000#16, arm := false }) := by
    intro order; cases order <;> decide
  simp only [outcome, given, step, presented, consume, List.headD_cons, List.tail_cons,
    show decode (.cyc 0x300000003#35) = .ok (.sigTmr 0b011#32) from rfl, exec, execSigTmr, h]
  rfl

/-- Section 2.1, row `CcwHalf1`. -/
theorem test_qdStep00 : returned (given (four .ccwHalf1 true 0#4 true) (.uop 0x0#4)) =
    some (four .ccwHalf2 true 0#4 true, .dir none) := by decide

/-- Section 2.1, row `CcwHalf2`. -/
theorem test_qdStep01 : returned (given (four .ccwHalf2 true 0#4 true) (.uop 0x1#4)) =
    some (four .ccwHalf3 true 0#4 true, .dir none) := by decide

/-- Section 2.1, row `Idle`. -/
theorem test_qdStep10 : returned (given (four .idle true 0#4 true) (.uop 0x2#4)) =
    some (four .ccwHalf1 true 0#4 true, .dir none) := by decide

/-- Section 2.1, row `CwHalf3`. -/
theorem test_qdStep11_clockwise : returned (given (four .cwHalf3 true 0#4 true) (.uop 0x3#4)) =
    some (four .idle true 0#4 true, .dir (some .clockwise)) := by decide

/-- Section 2.1, row `CcwHalf3`. -/
theorem test_qdStep11_counterClockwise : returned (given (four .ccwHalf3 true 0#4 true) (.uop 0x3#4)) =
    some (four .idle true 0#4 true, .dir (some .counterClockwise)) := by decide

/-- S6, step 1. -/
theorem test_bgTryAccept_open : returned (given (four .idle true 0#4 true) (.uop 0x5#4)) =
    some (four .idle false 0#4 true, .accepted true) := by decide

/-- S6, step 2. -/
theorem test_bgTryAccept_armed : returned (given (four .idle false 0#4 true) (.uop 0x5#4)) =
    some (four .idle false 0#4 true, .accepted false) := by decide

/-- S6, step 4. -/
theorem test_bgReopen : returned (given (four .idle false 0#4 true) (.uop 0x6#4)) =
    some (four .idle true 0#4 true, .none) := by decide

/-- S5: position 15. -/
theorem test_lrRender_on : returned (given (four .idle true 15#4 true) (.uop 0x8#4)) =
    some (four .idle true 15#4 true, .mask 0x8000#16) := by decide

/-- S4: position 15. -/
theorem test_lrRender_off : returned (given (four .idle true 15#4 false) (.uop 0x8#4)) =
    some (four .idle true 15#4 false, .mask 0x0000#16) := by decide

/-- S10. -/
theorem test_lrMover_wraps : returned (given (four .idle true 0#4 true) (.uop 0x9#4)) =
    some (four .idle true 15#4 true, .moved true) := by decide

/-- S10, the other end. -/
theorem test_lrMovel_wraps : returned (given (four .idle true 15#4 true) (.uop 0xA#4)) =
    some (four .idle true 0#4 true, .moved true) := by decide

/-- 42_led_ring.md R101: with the ring off nothing moves. -/
theorem test_lrMovel_off : returned (given (four .idle true 15#4 false) (.uop 0xA#4)) =
    some (four .idle true 15#4 false, .moved false) := by decide

/-- The example of 42_led_ring.md R102. -/
theorem test_lrEnable : returned (given (four .idle true 7#4 false) (.uop 0xB#4)) =
    some (four .idle true 7#4 true, .none) := by decide

/-- The example of 42_led_ring.md R103. -/
theorem test_lrDisable : returned (given (four .idle true 7#4 true) (.uop 0xC#4)) =
    some (four .idle true 7#4 false, .none) := by decide

/-- The example of 42_led_ring.md R104. -/
theorem test_lrToggle : returned (given (four .idle true 0#4 true) (.uop 0xD#4)) =
    some (four .idle true 0#4 false, .none) := by decide

/-- Section 2.3, Q14: a mid-path rest. -/
theorem test_samples_Q14 : qdRun .idle [0b01#2, 0b00#2, 0b11#2, 0b11#2, 0b10#2, 0b11#2] = (.idle, [.clockwise]) := by
  decide

/-- 30_encoding.md R69: a trace's `CW` is the four vectors of program P1. -/
theorem test_traceCw : traceCw.map lineVector = [0x100000001#35, 0x100000000#35, 0x100000002#35, 0x100000003#35] := by
  decide

/-- Section 7, cycles 3 to 6: the reference timer with `DEBOUNCE_TICKS` = 3. -/
theorem test_refTimer_window :
    refTimerTick 3 false true { cnt := 0, run := false, expired := false } =
      { cnt := 3, run := true, expired := false } ∧
    refTimerTick 3 false false { cnt := 1, run := true, expired := false } =
      { cnt := 1, run := false, expired := true } := by
  decide

/-! ## Witnesses: a state and operands that meet a statement's hypotheses -/

/-- `DecodeEncodeAgree`: a well-formed instruction of every constructor. -/
theorem witness_DecodeEncodeAgree :
    ([.rst, .nop, .tmr, .sigP00 0xFFFFFFF8#32, .sigP01 0xFFFFFFF9#32, .sigP10 2#32, .sigP11 3#32, .sigBtn 0xDEADBEEC#32,
      .sigTmr 0xFFFFFFFF#32, .qdStep00, .qdStep01, .qdStep10, .qdStep11, .bgTryAccept true, .bgReopen, .lrRender,
      .lrMover, .lrMovel, .lrEnable, .lrDisable, .lrToggle] : List Instr).all wellFormed = true := by decide

theorem witness_DecodedIsWellFormed :
    decode (.uop 0x5#4) = .ok (.bgTryAccept true) ∧ decode (.cyc 0x7FFFFFFFF#35) = .ok .rst := ⟨rfl, rfl⟩

theorem witness_ReservedUopCodesRefused :
    ((0xF#4 = 0x7#4 ∨ 0xF#4 = 0xE#4 ∨ 0xF#4 = 0xF#4) ∧ (given Regs.reset (.uop 0xF#4)).inputs = .uop 0xF#4 :: []) ∧
    ¬(0xD#4 = 0x7#4 ∨ 0xD#4 = 0xE#4 ∨ 0xD#4 = 0xF#4) := by decide

theorem witness_IgnoredRawBits : (0x00000001#32).extractLsb' 0 3 = (0xFFFFFFF9#32).extractLsb' 0 3 := by decide

theorem witness_StepRunsDecodedInstruction :
    (given Regs.reset (.cyc 0x100000004#35)).inputs = .cyc 0x100000004#35 :: [] ∧
    decode (.cyc 0x100000004#35) = .ok (.sigBtn 4#32) := ⟨rfl, rfl⟩

theorem witness_NothingPresentedIsNop : State.reset.inputs = [] := rfl

theorem witness_RstResult : (0x700000004#35).getLsbD 34 = true ∧ (0x400000000#35).getLsbD 34 = true := by decide

theorem witness_NopResult :
    (given Regs.reset (.cyc ((0xFFFFFFFF#32).setWidth 35))).inputs =
      [0xFFFFFFFF#32].map (fun raw => Input.cyc (raw.setWidth 35)) ++ [] := by decide

theorem witness_SigP00Result : (0xFFFFFFF8#32).extractLsb' 0 3 = 0b000#3 := by decide
theorem witness_SigP01Result : (0xFFFFFFF9#32).extractLsb' 0 3 = 0b001#3 := by decide
theorem witness_SigP10Result : (0xFFFFFFFA#32).extractLsb' 0 3 = 0b010#3 := by decide

/-- `SigP11Result`: a state for each clause. -/
theorem witness_SigP11Result :
    (0xFFFFFFFB#32).extractLsb' 0 3 = 0b011#3 ∧
    (given (four .cwHalf3 true 0#4 true) (.uop 0#4)).regs.encState = .cwHalf3 ∧
    (given (four .ccwHalf3 true 15#4 true) (.uop 0#4)).regs.encState = .ccwHalf3 ∧
    ((given (four .ccwHalf1 true 0#4 true) (.uop 0#4)).regs.encState = .cwHalf1 ∨
      (given (four .ccwHalf1 true 0#4 true) (.uop 0#4)).regs.encState = .ccwHalf1) ∧
    ((given (four .cwHalf2 true 0#4 true) (.uop 0#4)).regs.encState = .idle ∨
      (given (four .cwHalf2 true 0#4 true) (.uop 0#4)).regs.encState = .cwHalf2 ∨
      (given (four .cwHalf2 true 0#4 true) (.uop 0#4)).regs.encState = .ccwHalf2) := by decide

theorem witness_SigBtnResult :
    (0xFFFFFFFC#32).getLsbD 2 = true ∧ (given (four .cwHalf3 true 5#4 true) (.uop 0#4)).regs.gateOpen = true ∧
    (given (four .cwHalf3 false 5#4 true) (.uop 0#4)).regs.gateOpen = false := by decide

theorem witness_SigTmrResult :
    (0x00000003#32).getLsbD 2 = false ∧ (0x00000007#32).getLsbD 2 = true ∧
    (four .cwHalf3 true 5#4 true).gateOpen = true ∧ (four .cwHalf3 false 5#4 true).gateOpen = false := by decide

theorem witness_ArmBeforePublish :
    (0x00000004#32).getLsbD 2 = true ∧ (four .idle true 0#4 true).gateOpen = true := by decide

/-- The four `QdStep` statements: a sample of each phase with the button up, and with it down and the gate armed. -/
theorem witness_QdStepResults :
    ((0x0#32).extractLsb' 0 2 = 0b00#2 ∧ ((0x0#32).getLsbD 2 = false ∨ Regs.reset.gateOpen = false)) ∧
    ((0x5#32).extractLsb' 0 2 = 0b01#2 ∧
      ((0x5#32).getLsbD 2 = false ∨ (four .idle false 0#4 true).gateOpen = false)) ∧
    ((0x2#32).extractLsb' 0 2 = 0b10#2 ∧ ((0x2#32).getLsbD 2 = false ∨ Regs.reset.gateOpen = false)) ∧
    ((0x7#32).extractLsb' 0 2 = 0b11#2 ∧
      ((0x7#32).getLsbD 2 = false ∨ (four .idle false 0#4 true).gateOpen = false)) := by decide

theorem witness_OperationsKeepTheOutputs :
    Instr.bgTryAccept true ∈ ([.qdStep00, .qdStep01, .qdStep10, .qdStep11, .bgTryAccept true, .bgReopen, .lrRender,
      .lrMover, .lrMovel, .lrEnable, .lrDisable, .lrToggle] : List Instr) := by decide

/-- `EmissionNeedsTheFullPath`: both directions, from paths that do not come back to `Idle` before. -/
theorem witness_EmissionNeedsTheFullPath :
    ((∀ ys, ys ≠ [] → ys <+: [0b01#2, 0b00#2, 0b10#2] → (qdRun .idle ys).1 ≠ .idle) ∧
      (qdStep (qdRun .idle [0b01#2, 0b00#2, 0b10#2]).1 0b11#2).2 = some .clockwise) ∧
    ((∀ ys, ys ≠ [] → ys <+: [0b10#2, 0b00#2, 0b01#2] → (qdRun .idle ys).1 ≠ .idle) ∧
      (qdStep (qdRun .idle [0b10#2, 0b00#2, 0b01#2]).1 0b11#2).2 = some .counterClockwise) := by
  have cw : ∀ ys ∈ [0b01#2, 0b00#2, 0b10#2].inits, ys ≠ [] → (qdRun .idle ys).1 ≠ .idle := by decide
  have ccw : ∀ ys ∈ [0b10#2, 0b00#2, 0b01#2].inits, ys ≠ [] → (qdRun .idle ys).1 ≠ .idle := by decide
  exact ⟨⟨fun ys h0 h => cw ys ((List.mem_inits _ _).2 h) h0, by decide⟩,
    ⟨fun ys h0 h => ccw ys ((List.mem_inits _ _).2 h) h0, by decide⟩⟩

/-- `PathsJoinOnlyThroughIdle`, its last clause, on both paths. -/
theorem witness_PathsJoinOnlyThroughIdle :
    ((∀ ys, ys <+: [0b00#2, 0b10#2] → (qdRun .cwHalf1 ys).1 ≠ .idle) ∧ isCw .cwHalf1 = true) ∧
    ((∀ ys, ys <+: [0b00#2, 0b01#2] → (qdRun .ccwHalf1 ys).1 ≠ .idle) ∧ isCcw .ccwHalf1 = true) := by
  have cw : ∀ ys ∈ [0b00#2, 0b10#2].inits, (qdRun .cwHalf1 ys).1 ≠ .idle := by decide
  have ccw : ∀ ys ∈ [0b00#2, 0b01#2].inits, (qdRun .ccwHalf1 ys).1 ≠ .idle := by decide
  exact ⟨⟨fun ys h => cw ys ((List.mem_inits _ _).2 h), rfl⟩, ⟨fun ys h => ccw ys ((List.mem_inits _ _).2 h), rfl⟩⟩

theorem witness_ArmedGateIgnoresPresses : (four .cwHalf3 false 5#4 true).gateOpen = false := rfl

theorem witness_OneAcceptancePerWindow :
    (four .idle true 0#4 true).gateOpen = true ∧ ∀ p ∈ [false, false], p = false := by decide

theorem witness_MovesAreInverse : (four .idle true 0#4 true).ledEnable = true := rfl

/-- `PublishCondition` and `ArmCondition`: their last clauses, with the gate open before. -/
theorem witness_PublishCondition_ArmCondition :
    ∃ s t : State, exec .tmr s = .next t ∧ s.regs.gateOpen = true ∧ s.publish = true :=
  ⟨given (four .idle true 0#4 true) (.uop 0#4), _, rfl, rfl, rfl⟩

theorem witness_DecoderAndGateIndependent :
    (0x3#32).getLsbD 2 = false ∧ (0x7#32).getLsbD 2 = true ∧ (four .cwHalf3 true 5#4 true).gateOpen = true := by decide

/-- `RegisterWriters`: for each clause a step of the kind its premise asks for, by an instruction its conclusion
names. -/
theorem witness_RegisterWriters :
    (∃ s t : State, exec (.sigP01 1#32) s = .next t ∧ t.regs.encState ≠ s.regs.encState) ∧
    (∃ s t : State, exec (.sigBtn 4#32) s = .next t ∧ s.regs.gateOpen = true ∧ t.regs.gateOpen = false) ∧
    (∃ s t : State, exec .bgReopen s = .next t ∧ s.regs.gateOpen = false ∧ t.regs.gateOpen = true) ∧
    (∃ s t : State, exec .lrMovel s = .next t ∧ t.regs.ledNum ≠ s.regs.ledNum) ∧
    (∃ s t : State, exec .lrToggle s = .next t ∧ t.regs.ledEnable ≠ s.regs.ledEnable) :=
  ⟨⟨State.reset, _, rfl, by decide⟩, ⟨State.reset, _, rfl, rfl, by decide⟩,
    ⟨given (four .idle false 0#4 true) (.uop 0#4), _, rfl, rfl, rfl⟩, ⟨State.reset, _, rfl, by decide⟩,
    ⟨State.reset, _, rfl, by decide⟩⟩

theorem witness_PositionSurvivesDisable :
    ∃ s t : State, s.regs.ledEnable = false ∧ Instr.lrMover ≠ .rst ∧ exec .lrMover s = .next t :=
  ⟨given (four .idle true 4#4 false) (.uop 0#4), _, rfl, by decide, rfl⟩

/-- `EnableChangesOnlyByPressOrReset`: by a press, and by reset of a ring that was off. -/
theorem witness_EnableChangesOnlyByPressOrReset :
    (∃ t, step (given (four .idle true 0#4 true) (.cyc 0x100000004#35)) = .next t ∧ t.regs.ledEnable ≠ true) ∧
    (∃ t, step (given (four .idle true 0#4 false) (.cyc 0x400000000#35)) = .next t ∧ t.regs.ledEnable ≠ false) :=
  ⟨⟨_, rfl, by decide⟩, ⟨_, rfl, by decide⟩⟩

theorem witness_EveryExpressibleInputIsTaken :
    inputsExpressible { State.reset with inputs := [.cyc 0x7FFFFFFFF#35, .uop 0x6#4, .uop 0xD#4] } = true := by decide

/-- `ArmPulseComesWithPublish`: a step into an arm pulse, from a state that meets the premise with an arm pulse. -/
theorem witness_ArmPulseComesWithPublish :
    ∃ t, ((given Regs.reset (.cyc 0x100000004#35)).armDebounce = true →
        (given Regs.reset (.cyc 0x100000004#35)).publish = true) ∧
      step (given Regs.reset (.cyc 0x100000004#35)) = .next t ∧ t.armDebounce = true :=
  ⟨_, fun _ => rfl, rfl, by decide⟩

theorem witness_CycleRunsItsHandlers :
    (given Regs.reset (.cyc 0x300000007#35)).inputs = .cyc 0x300000007#35 :: [] ∧
    (0x300000007#35).getLsbD 34 = false := by decide

theorem witness_CycleLayerRefinesEventLayer :
    (∀ v ∈ [0x300000007#35, 0x000000000#35, 0x100000003#35], v.getLsbD 34 = false) ∧
    ({ State.reset with inputs := [.cyc 0x300000007#35, .cyc 0x000000000#35, .cyc 0x100000003#35] } : State).inputs =
      [0x300000007#35, 0x000000000#35, 0x100000003#35].map Input.cyc ++ [] := by
  refine ⟨fun v hv => ?_, rfl⟩
  simp only [List.mem_cons, List.not_mem_nil, or_false] at hv
  rcases hv with rfl | rfl | rfl <;> rfl

theorem witness_DisplayFollowsState :
    ∃ e ∈ (runEvents false Regs.reset [.sig 4#32, .tmr, .sig 1#32]).2, e.publish ≠ none :=
  ⟨{ publish := some 0#16, arm := true }, by decide, by decide⟩

/-- `BlockKeepsTimerOneShot`: with the gate open a press, a bounce in its window, the expiry and a second press; with the
gate armed an expiry while a window runs. -/
theorem witness_BlockKeepsTimerOneShot :
    (Regs.reset.gateOpen = !false ∧
      expiriesAnswerArms false (pulsesOf false Regs.reset [.sig 4#32, .sig 4#32, .tmr, .sig 4#32]) = true) ∧
    ((four .idle false 0#4 false).gateOpen = !true ∧ (Event.tmr = .tmr → true = true) ∧
      expiriesAnswerArms true (pulsesOf false (four .idle false 0#4 false) [.tmr, .sig 4#32]) = true) := by decide

/-- A press at reset, the expiry in the cycle after its arm pulse, and a cycle with nothing. -/
def pressAndExpiry : State :=
  { State.reset with inputs := [.cyc 0x100000004#35, .cyc 0x000000000#35, .cyc 0x200000000#35, .cyc 0x000000000#35] }

/-- `BlockKeepsTimerOneShotAtPorts`, its first clause, at reset with no window running. -/
theorem witness_BlockKeepsTimerOneShotAtPorts :
    (∀ i ∈ pressAndExpiry.inputs, ∃ v : Cyc, i = .cyc v ∧ v.getLsbD 34 = false) ∧
    pressAndExpiry.regs.gateOpen = !(false || pressAndExpiry.armDebounce) ∧
    (pressAndExpiry.armDebounce = true → false = false) ∧
    portPulses 4 pressAndExpiry = [.arm, .expiry] ∧
    expiriesAnswerArms false (portPulses 4 pressAndExpiry) = true := by
  refine ⟨fun i hi => ?_, by decide, fun _ => rfl, by decide, by decide⟩
  simp only [pressAndExpiry, List.mem_cons, List.not_mem_nil, or_false] at hi
  rcases hi with rfl | rfl | rfl | rfl <;> exact ⟨_, rfl, rfl⟩

/-- `BlockKeepsTimerOneShotAtPorts`, its second clause: a coincidence with the gate open. -/
theorem witness_BlockKeepsTimerOneShotAtPorts_excluded :
    ({ State.reset with inputs := [.cyc 0x300000007#35] } : State).armDebounce = false ∧
    expiryPresented { State.reset with inputs := [.cyc 0x300000007#35] } = true := by decide

/-- 60_exceptions.md R145: a press accepted in a `SIGTMR` cycle with the gate open shows its expiry before its arm, in
either order of the handlers, and `TimerOneShot` excludes it. -/
theorem test_portPulses_coincidence :
    portPulses 1 { State.reset with inputs := [.cyc 0x300000007#35] } = [.expiry, .arm] ∧
    timerOneShot false [.expiry, .arm] = false := by
  have h : ∀ order, (onBoth order Regs.reset 7#32).2.arm = true := by intro order; cases order <;> decide
  obtain ⟨t, hs, ht⟩ : ∃ t, step { State.reset with inputs := [.cyc 0x300000007#35] } = .next t ∧ t.armDebounce = true :=
    ⟨_, rfl, h _⟩
  refine ⟨?_, by decide⟩
  rw [portPulses_succ_of_next hs, portPulses_zero, armPulse, armPulse, if_pos ht]
  rfl

/-- The closed system in the cycle after a press, the arm pulse high. -/
def pressed : System :=
  { block := { State.reset with regs := four .idle false 0#4 false, publish := true, armDebounce := true },
    timer := refTimerReset, disp := none }

/-- `ClosedSystemWindowMatchesGate`: with the gate open and with the gate armed. -/
theorem witness_ClosedSystemWindowMatchesGate :
    windowMatchesGate systemReset = true ∧ windowMatchesGate pressed = true := by decide

/-- `ClosedSystemDisplayFollows`: with a publish under way, and with the latch showing the rendering. -/
theorem witness_ClosedSystemDisplayFollows :
    ({ rst := false, sigValid := true, raw := 4#32 } : EnvInput).rst = false ∧ displayFollows pressed = true ∧
    displayFollows { pressed with block := { pressed.block with publish := false }, disp := some 0#16 } = true := by decide

/-- A bouncing button: the same press event in `n` cycles. -/
def bounce (n : Nat) : List EnvInput := List.replicate n { rst := false, sigValid := true, raw := 7#32 }

/-- `ReferenceTimerWindow` with `DEBOUNCE_TICKS` = 3 and the button bouncing: the window's last cycle and the expiry. -/
theorem witness_ReferenceTimerWindow :
    1 ≤ 3 ∧ windowMatchesGate pressed = true ∧ pressed.block.armDebounce = true ∧
    (∀ n, ∀ e ∈ bounce n, e.rst = false) ∧ (bounce 3).length ≤ 3 ∧ (bounce 4).length = 3 + 1 :=
  ⟨by decide, by decide, rfl, fun n e h => by rw [List.eq_of_mem_replicate h], by decide, by decide⟩

end Sys2Proof.Tests.Slice0
end

section
/-!
The registers of 10_state.md: their values after reset (R32), and the independence of the decoder and the gate (R35).
A component that neither reads nor writes a register commutes with every write to it; each lemma named `_set_` says
so of one function of the model.
-/

namespace Sys2Proof.Machine

/-- Settles O9: every row is a field of `State.reset`. -/
theorem resetValues : Obligations.ResetValues :=
  ⟨rfl, rfl, rfl, rfl, rfl, rfl⟩

/-! ### The decoder's operations and the gate -/

/-- Each of the four operations is one decoder step with the sample in its name. -/
theorem exec_eq_qdOp {i : Instr} (h : i = .qdStep00 ∨ i = .qdStep01 ∨ i = .qdStep10 ∨ i = .qdStep11) :
    ∃ x, ∀ s, exec i s = .next (qdOp x s) := by
  rcases h with rfl | rfl | rfl | rfl
  · exact ⟨0b00#2, fun _ => rfl⟩
  · exact ⟨0b01#2, fun _ => rfl⟩
  · exact ⟨0b10#2, fun _ => rfl⟩
  · exact ⟨0b11#2, fun _ => rfl⟩

theorem qdOp_keeps_gateOpen (x : Phase) (s : State) : (qdOp x s).regs.gateOpen = s.regs.gateOpen := rfl

theorem qdOp_set_gateOpen (x : Phase) (s : State) (g : Bool) :
    qdOp x { s with regs := { s.regs with gateOpen := g } } =
      { qdOp x s with regs := { (qdOp x s).regs with gateOpen := g } } := rfl

/-! ### The gate's operations and the decoder's state -/

theorem bgTryAccept_keeps_encState (r : Regs) (p : Bool) : (bgTryAccept r p).1.encState = r.encState := by
  cases h : p && r.gateOpen
  · rw [bgTryAccept_ignored h]
  · rw [bgTryAccept_accepted h]

theorem bgTryAccept_set_encState (r : Regs) (p : Bool) (q : EncState) :
    bgTryAccept { r with encState := q } p = ({ (bgTryAccept r p).1 with encState := q }, (bgTryAccept r p).2) := by
  cases h : p && r.gateOpen
  · rw [bgTryAccept_ignored h, bgTryAccept_ignored (r := { r with encState := q }) h]
  · rw [bgTryAccept_accepted h, bgTryAccept_accepted (r := { r with encState := q }) h]

theorem exec_bgTryAccept_eq (s : State) (p : Bool) :
    exec (.bgTryAccept p) s =
      .next (returnFrom s (bgTryAccept s.regs p).1 (.accepted (bgTryAccept s.regs p).2)) := rfl

theorem exec_bgTryAccept_set_encState (s : State) (p : Bool) (q : EncState) :
    ∃ t, exec (.bgTryAccept p) s = .next t ∧ t.regs.encState = s.regs.encState ∧
      exec (.bgTryAccept p) { s with regs := { s.regs with encState := q } } =
        .next { t with regs := { t.regs with encState := q } } := by
  refine ⟨_, exec_bgTryAccept_eq s p, bgTryAccept_keeps_encState s.regs p, ?_⟩
  rw [exec_bgTryAccept_eq, bgTryAccept_set_encState]
  rfl

theorem exec_bgReopen_set_encState (s : State) (q : EncState) :
    ∃ t, exec .bgReopen s = .next t ∧ t.regs.encState = s.regs.encState ∧
      exec .bgReopen { s with regs := { s.regs with encState := q } } =
        .next { t with regs := { t.regs with encState := q } } :=
  ⟨_, rfl, rfl, rfl⟩

/-! ### The handler's two branches -/

theorem lrMover_set_gateOpen (r : Regs) (g : Bool) :
    lrMover { r with gateOpen := g } = ({ (lrMover r).1 with gateOpen := g }, (lrMover r).2) := by
  cases hl : r.ledEnable
  · simp [lrMover_off, hl]
  · simp [lrMover_on, hl]

theorem lrMovel_set_gateOpen (r : Regs) (g : Bool) :
    lrMovel { r with gateOpen := g } = ({ (lrMovel r).1 with gateOpen := g }, (lrMovel r).2) := by
  cases hl : r.ledEnable
  · simp [lrMovel_off, hl]
  · simp [lrMovel_on, hl]

theorem moveFor_set_gateOpen (dir : Option Direction) (r : Regs) (g : Bool) :
    moveFor dir { r with gateOpen := g } = ({ (moveFor dir r).1 with gateOpen := g }, (moveFor dir r).2) :=
  match dir with
  | some .clockwise => lrMover_set_gateOpen r g
  | some .counterClockwise => lrMovel_set_gateOpen r g
  | none => rfl

/-- The rendering does not read the gate (42_led_ring.md R105), so a publish is the same for every gate too. -/
theorem phaseBranch_set_gateOpen (pnm : Bool) (r : Regs) (x : Phase) (g : Bool) :
    phaseBranch pnm { r with gateOpen := g } x =
      ({ (phaseBranch pnm r x).1 with gateOpen := g }, (phaseBranch pnm r x).2) := by
  have hmove := moveFor_set_gateOpen (qdStep r.encState x).2 { r with encState := (qdStep r.encState x).1 } g
  simp [phaseBranch, hmove, renderRegs]

/-- With the button up nothing is accepted, whatever the gate: the event is its phase branch. -/
theorem onSignalWith_released {pnm : Bool} {raw : Raw} (h : raw.getLsbD 2 = false) (r : Regs) :
    onSignalWith pnm r raw = phaseBranch pnm r (phase raw) := by
  have hb : button raw = false := h
  exact onSignalWith_ignored (by rw [hb, Bool.false_and])

theorem onSignalWith_released_keeps_gateOpen {pnm : Bool} {raw : Raw} (h : raw.getLsbD 2 = false) (r : Regs) :
    (onSignalWith pnm r raw).1.gateOpen = r.gateOpen := by
  obtain ⟨p, hregs, -⟩ := phaseBranch_spec pnm r (phase raw)
  rw [onSignalWith_released h, hregs]

theorem onSignalWith_released_set_gateOpen {pnm : Bool} {raw : Raw} (h : raw.getLsbD 2 = false) (r : Regs) (g : Bool) :
    onSignalWith pnm { r with gateOpen := g } raw =
      ({ (onSignalWith pnm r raw).1 with gateOpen := g }, (onSignalWith pnm r raw).2) := by
  rw [onSignalWith_released h, onSignalWith_released h, phaseBranch_set_gateOpen]

/-- The phase is dropped when a press is accepted (43_dispatch.md R115), so the decoder's state stays. -/
theorem onSignalWith_accepted_keeps_encState {pnm : Bool} {r : Regs} {raw : Raw}
    (h : (button raw && r.gateOpen) = true) : (onSignalWith pnm r raw).1.encState = r.encState := by
  rw [onSignalWith_accepted h]

theorem onSignalWith_accepted_set_encState {pnm : Bool} {r : Regs} {raw : Raw}
    (h : (button raw && r.gateOpen) = true) (q : EncState) :
    onSignalWith pnm { r with encState := q } raw =
      ({ (onSignalWith pnm r raw).1 with encState := q }, (onSignalWith pnm r raw).2) := by
  rw [onSignalWith_accepted h, onSignalWith_accepted (r := { r with encState := q }) h]

/-- Settles O46: one pair of lemmas for each component, one for each branch of `OnSignal`. -/
theorem decoderAndGateIndependent : Obligations.DecoderAndGateIndependent := by
  refine ⟨fun s g i hi => ?decoder, fun s q p i hi => ?gate, fun r g raw hup => ?released,
    fun r q raw hdown hopen => ?accepted⟩
  case decoder =>
    obtain ⟨x, hx⟩ := exec_eq_qdOp hi
    exact ⟨qdOp x s, hx s, qdOp_keeps_gateOpen x s, by rw [hx, qdOp_set_gateOpen]⟩
  case gate =>
    rcases hi with rfl | rfl
    · exact exec_bgTryAccept_set_encState s p q
    · exact exec_bgReopen_set_encState s q
  case released =>
    exact ⟨onSignalWith_released_keeps_gateOpen hup r, onSignalWith_released_set_gateOpen hup r g⟩
  case accepted =>
    have haccepted : (button raw && r.gateOpen) = true := Bool.and_eq_true_iff.mpr ⟨hdown, hopen⟩
    exact ⟨onSignalWith_accepted_keeps_encState haccepted, onSignalWith_accepted_set_encState haccepted q⟩

end Sys2Proof.Machine
end

section
/-!
The encoding (30_encoding.md sections 3 and 4): the `UOP` codes (R61, R66), the rows of the `CYC` table and the vectors
they match (R60), the round trips of decoder and encoder, and the bits of `raw` that nothing reads (R58).

A vector is its four ports (R59). One that carries a sample without a reset is the encoding of its event, so
`Laws.RowOf` says which row it matches; only `RST`, `NOP` and `TMR` have don't-care bits that the encoder loses.
-/

namespace Sys2Proof.Machine

/-! ### Samples -/

/-- A sample of phase `pp` is one of each of the three bits that the decoder tests. -/
theorem isPhaseSample_iff {raw : Raw} {pp : Phase} :
    isPhaseSample raw pp = true ↔
      button raw = false ∧ raw.getLsbD 1 = pp.getLsbD 1 ∧ raw.getLsbD 0 = pp.getLsbD 0 := by
  simp [isPhaseSample, phase_eq_iff, BitVec.getLsbD_eq_getElem]

theorem button_eq_of_low_bits {a b : Raw} (h : a.extractLsb' 0 3 = b.extractLsb' 0 3) : button a = button b := by
  simpa [button] using congrArg (fun x : BitVec 3 => x.getLsbD 2) h

theorem phase_eq_of_low_bits {a b : Raw} (h : a.extractLsb' 0 3 = b.extractLsb' 0 3) : phase a = phase b := by
  have h1 := congrArg (fun x : BitVec 3 => x.getLsbD 1) h
  have h0 := congrArg (fun x : BitVec 3 => x.getLsbD 0) h
  rw [phase_eq_iff]
  exact ⟨by simpa using h1, by simpa using h0⟩

/-! ### Vectors and their ports -/

/-- Vectors with the same ports are equal: the four ports are all 35 bits (30_encoding.md R59). -/
theorem cyc_eq_of_ports {v w : Cyc} (hrst : cycRst v = cycRst w) (htmr : cycTmr v = cycTmr w)
    (hsig : cycSig v = cycSig w) (hraw : cycRaw v = cycRaw w) : v = w := by
  refine BitVec.eq_of_getLsbD_eq fun i hi => ?_
  by_cases hlow : i < 32
  · simpa [cycRaw, hlow] using congrArg (fun x : Raw => x.getLsbD i) hraw
  · obtain rfl | rfl | rfl : i = 32 ∨ i = 33 ∨ i = 34 := by omega
    · exact hsig
    · exact htmr
    · exact hrst

/-- The five kinds of vector: the three whose `raw` is not read, and the two that carry a sample. -/
theorem cyc_cases (v : Cyc) :
    cycRst v = true ∨
    (cycRst v = false ∧ cycTmr v = false ∧ cycSig v = false) ∨
    (cycRst v = false ∧ cycTmr v = true ∧ cycSig v = false) ∨
    (∃ raw, v = sigVector raw) ∨ ∃ raw, v = sigTmrVector raw := by
  cases hrst : cycRst v
  case true => simp
  case false =>
    cases hsig : cycSig v <;> cases htmr : cycTmr v
    case false.false => simp
    case false.true => simp
    case true.false =>
      have hv : v = sigVector (cycRaw v) := cyc_eq_of_ports (by simpa) (by simpa) (by simpa) (by simp)
      exact .inr (.inr (.inr (.inl ⟨_, hv⟩)))
    case true.true =>
      have hv : v = sigTmrVector (cycRaw v) := cyc_eq_of_ports (by simpa) (by simpa) (by simpa) (by simp)
      exact .inr (.inr (.inr (.inr ⟨_, hv⟩)))

/-! ### The decoder of vectors -/

theorem decodeCyc_of_rst {v : Cyc} (hrst : cycRst v = true) : decodeCyc v = .rst := by
  simp [decodeCyc, hrst]

theorem decodeCyc_of_no_strobe {v : Cyc} (hrst : cycRst v = false) (htmr : cycTmr v = false)
    (hsig : cycSig v = false) : decodeCyc v = .nop := by
  simp [decodeCyc, hrst, htmr, hsig]

theorem decodeCyc_of_tmr {v : Cyc} (hrst : cycRst v = false) (htmr : cycTmr v = true)
    (hsig : cycSig v = false) : decodeCyc v = .tmr := by
  simp [decodeCyc, hrst, htmr, hsig]

theorem raw_of_decodeCyc {v : Cyc} {raw : Raw} (h : (decodeCyc v).raw? = some raw) : raw = cycRaw v := by
  revert h
  fun_cases decodeCyc v <;> simp [Instr.raw?, eq_comm]

theorem wellFormed_decodeCyc_sigVector (raw : Raw) : wellFormed (decodeCyc (sigVector raw)) = true := by
  rw [decodeCyc_sigVector]
  cases hb : button raw
  case true => exact hb
  case false =>
    cases h1 : raw.getLsbD 1 <;> cases h0 : raw.getLsbD 0 <;> exact isPhaseSample_iff.mpr ⟨hb, h1, h0⟩

theorem wellFormed_decodeCyc (v : Cyc) : wellFormed (decodeCyc v) = true := by
  rcases cyc_cases v with hrst | ⟨hrst, htmr, hsig⟩ | ⟨hrst, htmr, hsig⟩ | ⟨raw, rfl⟩ | ⟨raw, rfl⟩
  · rw [decodeCyc_of_rst hrst]; rfl
  · rw [decodeCyc_of_no_strobe hrst htmr hsig]; rfl
  · rw [decodeCyc_of_tmr hrst htmr hsig]; rfl
  · exact wellFormed_decodeCyc_sigVector raw
  · rw [decodeCyc_sigTmrVector]; rfl

/-- No bit of a `SIG` vector is lost: the encoding of its event is the vector itself. -/
theorem encode_decodeCyc_sigVector (raw : Raw) : encode (decodeCyc (sigVector raw)) = .cyc (sigVector raw) := by
  rw [decodeCyc_sigVector]
  split
  · rfl
  · split <;> rfl

theorem encode_decodeCyc_sigTmrVector (raw : Raw) :
    encode (decodeCyc (sigTmrVector raw)) = .cyc (sigTmrVector raw) := by
  rw [decodeCyc_sigTmrVector]; rfl

theorem encode_decodeCyc_is_vector (v : Cyc) : ∃ w, encode (decodeCyc v) = .cyc w := by
  fun_cases decodeCyc v <;> exact ⟨_, rfl⟩

/-! ### The rows of the table -/

theorem matchesVector_eq_true_iff {row : CycRow} {v : Cyc} :
    row.matchesVector v = true ↔ v &&& row.mask = row.bits := by
  simp [CycRow.matchesVector]

/-- A row matches a vector port by port. -/
theorem matchesVector_iff_ports {row : CycRow} {v : Cyc} :
    row.matchesVector v = true ↔
      (cycRst v && cycRst row.mask) = cycRst row.bits ∧ (cycTmr v && cycTmr row.mask) = cycTmr row.bits ∧
      (cycSig v && cycSig row.mask) = cycSig row.bits ∧ cycRaw v &&& cycRaw row.mask = cycRaw row.bits := by
  have hrst : cycRst (v &&& row.mask) = (cycRst v && cycRst row.mask) := BitVec.getLsbD_and
  have htmr : cycTmr (v &&& row.mask) = (cycTmr v && cycTmr row.mask) := BitVec.getLsbD_and
  have hsig : cycSig (v &&& row.mask) = (cycSig v && cycSig row.mask) := BitVec.getLsbD_and
  have hraw : cycRaw (v &&& row.mask) = cycRaw v &&& cycRaw row.mask := BitVec.extractLsb'_and
  rw [matchesVector_eq_true_iff, ← hrst, ← htmr, ← hsig, ← hraw]
  constructor
  · intro h
    rw [h]
    exact ⟨rfl, rfl, rfl, rfl⟩
  · rintro ⟨h1, h2, h3, h4⟩
    exact cyc_eq_of_ports h1 h2 h3 h4

/-- Two rows of the table differ in a bit that both their masks test. -/
theorem row_eq_of_compatible :
    ∀ row ∈ cycRows, ∀ other ∈ cycRows, other.bits &&& row.mask = row.bits &&& other.mask → other = row := by
  decide

theorem row_eq_of_mnemonic :
    ∀ row ∈ cycRows, ∀ other ∈ cycRows, other.mnemonic = row.mnemonic → other = row := by
  decide

/-- No vector matches two rows: it would give the bits that both masks test two values. -/
theorem row_eq_of_matchesVector {row other : CycRow} (hrow : row ∈ cycRows) (hother : other ∈ cycRows) {v : Cyc}
    (h : row.matchesVector v = true) (h' : other.matchesVector v = true) : other = row := by
  rw [matchesVector_eq_true_iff] at h h'
  refine row_eq_of_compatible row hrow other hother ?_
  rw [← h, ← h', BitVec.and_assoc, BitVec.and_assoc, BitVec.and_comm other.mask]

/-- The whole family `Laws.RowOf`. -/
theorem rowOf_statement : ∀ i : Instr, Laws.RowOf.Statement i
  | .rst => Laws.RowOf.rst
  | .nop => Laws.RowOf.nop
  | .tmr => Laws.RowOf.tmr
  | .sigP00 raw => Laws.RowOf.sigP00 raw
  | .sigP01 raw => Laws.RowOf.sigP01 raw
  | .sigP10 raw => Laws.RowOf.sigP10 raw
  | .sigP11 raw => Laws.RowOf.sigP11 raw
  | .sigBtn raw => Laws.RowOf.sigBtn raw
  | .sigTmr raw => Laws.RowOf.sigTmr raw
  | .qdStep00 => Laws.RowOf.qdStep00
  | .qdStep01 => Laws.RowOf.qdStep01
  | .qdStep10 => Laws.RowOf.qdStep10
  | .qdStep11 => Laws.RowOf.qdStep11
  | .bgTryAccept pressed => Laws.RowOf.bgTryAccept pressed
  | .bgReopen => Laws.RowOf.bgReopen
  | .lrRender => Laws.RowOf.lrRender
  | .lrMover => Laws.RowOf.lrMover
  | .lrMovel => Laws.RowOf.lrMovel
  | .lrEnable => Laws.RowOf.lrEnable
  | .lrDisable => Laws.RowOf.lrDisable
  | .lrToggle => Laws.RowOf.lrToggle

/-- The vector that a well-formed event encodes to matches the row of its mnemonic. -/
theorem exists_row_of_encode {i : Instr} {w : Cyc} (hwf : wellFormed i = true) (hw : encode i = .cyc w) :
    ∃ row ∈ cycRows, row.mnemonic = i.mnemonic ∧ row.matchesVector w = true := by
  simpa [Laws.RowOf.rowCheck, hw, List.any_eq_true] using rowOf_statement i hwf

/-- Every vector matches the row of the event it decodes to. -/
theorem exists_row_of_decodeCyc (v : Cyc) :
    ∃ row ∈ cycRows, row.mnemonic = (decodeCyc v).mnemonic ∧ row.matchesVector v = true := by
  rcases cyc_cases v with hrst | ⟨hrst, htmr, hsig⟩ | ⟨hrst, htmr, hsig⟩ | ⟨raw, rfl⟩ | ⟨raw, rfl⟩
  · refine ⟨⟨"RST", 0x400000000#35, 0x400000000#35⟩, by decide, by rw [decodeCyc_of_rst hrst]; rfl, ?_⟩
    rw [matchesVector_iff_ports, hrst]
    simp [cycRst, cycTmr, cycSig, cycRaw]
  · refine ⟨⟨"NOP", 0x000000000#35, 0x700000000#35⟩, by decide,
      by rw [decodeCyc_of_no_strobe hrst htmr hsig]; rfl, ?_⟩
    rw [matchesVector_iff_ports, hrst, htmr, hsig]
    simp [cycRst, cycTmr, cycSig, cycRaw]
  · refine ⟨⟨"TMR", 0x200000000#35, 0x700000000#35⟩, by decide,
      by rw [decodeCyc_of_tmr hrst htmr hsig]; rfl, ?_⟩
    rw [matchesVector_iff_ports, hrst, htmr, hsig]
    simp [cycRst, cycTmr, cycSig, cycRaw]
  · exact exists_row_of_encode (wellFormed_decodeCyc _) (encode_decodeCyc_sigVector raw)
  · exact exists_row_of_encode (wellFormed_decodeCyc _) (encode_decodeCyc_sigTmrVector raw)

/-! ### The operations' codes -/

/-- The sixteen codes of 30_encoding.md R61: one that names an operation is its index. -/
theorem wellFormed_encode_of_decodeUop :
    ∀ u : Uop, ∀ i ∈ (decodeUop u).toOption, wellFormed i = true ∧ encode i = .uop u := by
  decide

theorem decodeUop_isOk_of_not_reserved :
    ∀ u : Uop, ¬(u = 0x7#4 ∨ u = 0xE#4 ∨ u = 0xF#4) → (decodeUop u).isOk = true := by
  decide

theorem decode_reservedUop {u : Uop} (h : u = 0x7#4 ∨ u = 0xE#4 ∨ u = 0xF#4) :
    decode (.uop u) = .error (.reservedUop u) := by
  rcases h with rfl | rfl | rfl <;> rfl

/-! ### The bits of `raw` that nothing reads -/

/-- `OnSignal` reads the button and the phase of `raw`, and nothing else (30_encoding.md R58). -/
theorem onSignalWith_eq_of_operands {a b : Raw} (hbutton : button a = button b) (hphase : phase a = phase b)
    (pnm : Bool) (r : Regs) : onSignalWith pnm r a = onSignalWith pnm r b := by
  simp only [onSignalWith, hbutton, hphase]

theorem onBothWith_eq_of_operands {a b : Raw} (hbutton : button a = button b) (hphase : phase a = phase b)
    (pnm : Bool) (order : CoincidentOrder) (r : Regs) : onBothWith pnm order r a = onBothWith pnm order r b := by
  cases order
  · simp only [onBothWith_sigFirst, onSignalWith_eq_of_operands hbutton hphase]
  · simp only [onBothWith_tmrFirst, onSignalWith_eq_of_operands hbutton hphase]

/-- Whichever of the five `SIG` events a sample is, its clock edge is that of `OnSignal`. -/
theorem exec_decodeCyc_sigVector (raw : Raw) (s : State) :
    exec (decodeCyc (sigVector raw)) s = .next (clockEdge s (onSignal s.regs raw)) := by
  rw [decodeCyc_sigVector]
  split
  · rfl
  · split <;> rfl

theorem step_cyc_cons (s : State) (v : Cyc) (rest : List Input) :
    step { s with inputs := .cyc v :: rest } = exec (decodeCyc v) { s with inputs := rest } :=
  step_of_decode rfl

theorem step_sigVector (s : State) (raw : Raw) (rest : List Input) :
    step { s with inputs := .cyc (sigVector raw) :: rest } =
      .next (clockEdge { s with inputs := rest } (onSignalWith Config.publishOnNoopMove s.regs raw)) := by
  rw [step_cyc_cons, exec_decodeCyc_sigVector]
  rfl

theorem step_sigTmrVector (s : State) (raw : Raw) (rest : List Input) :
    step { s with inputs := .cyc (sigTmrVector raw) :: rest } =
      .next (clockEdge { s with inputs := rest, coincidences := s.coincidences + 1 }
        (onBothWith Config.publishOnNoopMove (Config.coincidentOrder s.coincidences) s.regs raw)) := by
  rw [step_cyc_cons, decodeCyc_sigTmrVector]
  rfl

/-! ### The statements -/

/-- Settles O1: an operation's word is one of fixed bits, and an event's vector shows the decoder the ports it was built
from; a well-formed operand has the bits that the decoder tests for its row. -/
theorem decodeEncodeAgree : Obligations.DecodeEncodeAgree := by
  intro i hwf
  cases i with
  | sigP00 raw | sigP01 raw | sigP10 raw | sigP11 raw =>
    obtain ⟨hb, h1, h0⟩ := isPhaseSample_iff.mp hwf
    simp only [encode, decode, decodeCyc_sigVector, hb, h1, h0]
    rfl
  | sigBtn raw =>
    have hb : button raw = true := hwf
    simp [encode, decode, decodeCyc_sigVector, hb]
  | sigTmr raw => simp [encode, decode, decodeCyc_sigTmrVector]
  | bgTryAccept pressed => cases pressed <;> rfl
  | rst | nop | tmr | qdStep00 | qdStep01 | qdStep10 | qdStep11 | bgReopen | lrRender | lrMover | lrMovel | lrEnable
  | lrDisable | lrToggle => rfl

/-- Settles O2: the row of the event that the vector decodes to matches, and no vector matches two rows. -/
theorem everyVectorMatchesExactlyOneRow : Obligations.EveryVectorMatchesExactlyOneRow := by
  intro v
  obtain ⟨row, hrow, hmnemonic, hmatch⟩ := exists_row_of_decodeCyc v
  exact ⟨row, hrow, hmatch, fun other hother => row_eq_of_matchesVector hrow hother hmatch,
    decodeCyc v, rfl, hmnemonic.symm, fun raw => raw_of_decodeCyc⟩

/-- Settles O3: a vector and the encoding of its event each match the row with the event's mnemonic, and there is only
one. -/
theorem decodedIsWellFormed : Obligations.DecodedIsWellFormed := by
  intro inp i hi
  cases inp with
  | cyc v =>
    obtain rfl : decodeCyc v = i := Except.ok.inj hi
    have hwf := wellFormed_decodeCyc v
    refine ⟨hwf, fun u hu => (by cases hu), fun v' hv' => ?_⟩
    obtain rfl : v = v' := Input.cyc.inj hv'
    obtain ⟨w, hw⟩ := encode_decodeCyc_is_vector v
    obtain ⟨row, hrow, hmnemonic, hmatch⟩ := exists_row_of_decodeCyc v
    obtain ⟨other, hother, hmnemonic', hmatch'⟩ := exists_row_of_encode hwf hw
    obtain rfl : other = row := row_eq_of_mnemonic row hrow other hother (hmnemonic'.trans hmnemonic.symm)
    exact ⟨other, hrow, hmnemonic, hmatch, w, hw, hmatch'⟩
  | uop u =>
    have hmem : i ∈ (decodeUop u).toOption := by
      rw [show decodeUop u = .ok i from hi]
      rfl
    obtain ⟨hwf, henc⟩ := wellFormed_encode_of_decodeUop u i hmem
    refine ⟨hwf, fun u' hu' => ?_, fun v hv => (by cases hv)⟩
    rw [henc, hu']
  | stray nbits w => cases hi

/-- Settles O6: a sample's step is one clock edge of its handler, and the handlers read two operands, which lie in bits
2:0 of `raw`. -/
theorem ignoredRawBits : Obligations.IgnoredRawBits := by
  intro s rest a b h
  have hbutton := button_eq_of_low_bits h
  have hphase := phase_eq_of_low_bits h
  refine ⟨?_, ?_, ⟨_, step_sigVector s a rest⟩, ⟨_, step_sigTmrVector s a rest⟩⟩
  · rw [step_sigVector, step_sigVector, onSignalWith_eq_of_operands hbutton hphase]
  · rw [step_sigTmrVector, step_sigTmrVector, onBothWith_eq_of_operands hbutton hphase]

/-- Settles O4: the sixteen codes of 30_encoding.md R61, and the step of a word that does not decode. -/
theorem reservedUopCodesRefused : Obligations.ReservedUopCodesRefused := by
  intro u
  refine ⟨fun hu => ⟨decode_reservedUop hu, fun s rest hs => ?_⟩, fun hu => ?_⟩
  · exact step_of_error (by rw [presented_cons hs, decode_reservedUop hu])
  · have hok := decodeUop_isOk_of_not_reserved u hu
    cases hdec : decodeUop u with
    | ok i => exact ⟨i, hdec⟩
    | error e =>
      rw [hdec] at hok
      cases hok

end Sys2Proof.Machine
end

section
/-!
The quadrature decoder's four operations (40_quadrature_decoder.md R76 to R79). Each is `QD_STEP` with the sample in its
name, and so is the phase branch of an event that carries the sample; so once the row of `QD_STEP` for a sample is known,
state by state, the operation and the events that reach it follow in the same way for all four.
-/

namespace Sys2Proof.Machine

/-- An event whose press is not accepted takes the decoder's step with its phase (43_dispatch.md R115, R131). -/
theorem onSignal_encState_of_not_accepted {r : Regs} {raw : Raw} (h : raw.getLsbD 2 = false ∨ r.gateOpen = false) :
    (onSignal r raw).1.encState = (qdStep r.encState (phase raw)).1 := by
  have hignored : (button raw && r.gateOpen) = false := Bool.and_eq_false_iff.mpr h
  obtain ⟨p, hregs, -⟩ := phaseBranch_spec Config.publishOnNoopMove r (phase raw)
  rw [onSignal, onSignalWith_ignored hignored, hregs]

/-- The next state of a decoder's operation, read off the row of `QD_STEP` for its sample: the state moves as the row
says, the other registers stay and the direction is returned. -/
theorem exec_qdOp_of_row {i : Instr} {x : Phase} {next : EncState → EncState} {dir : EncState → Option Direction}
    (hexec : ∀ s, exec i s = .next (qdOp x s)) (hrow : ∀ q, qdStep q x = (next q, dir q)) (s : State) :
    ∃ t, exec i s = .next t ∧ t.regs = { s.regs with encState := next s.regs.encState } ∧
      t.result = .dir (dir s.regs.encState) := by
  refine ⟨qdOp x s, hexec s, ?_, ?_⟩
  · rw [qdOp, returnFrom_regs, hrow]
  · rw [qdOp, returnFrom_result, hrow]

/-- An event whose press is not accepted moves the decoder's state as the row of its phase says. -/
theorem onSignal_encState_of_row {x : Phase} {next : EncState → EncState} {dir : EncState → Option Direction}
    (hrow : ∀ q, qdStep q x = (next q, dir q)) (r : Regs) (raw : Raw) (hphase : raw.extractLsb' 0 2 = x)
    (hpress : raw.getLsbD 2 = false ∨ r.gateOpen = false) : (onSignal r raw).1.encState = next r.encState := by
  rw [onSignal_encState_of_not_accepted hpress, phase, hphase, hrow]

/-- Settles O23: the row of sample 00, and what follows from a row. -/
theorem qdStep00Result : Obligations.QdStep00Result := by
  unfold Obligations.QdStep00Result
  intro next
  have hrow : ∀ q, qdStep q 0b00#2 = (next q, none) := by
    intro q
    cases q <;> rfl
  exact ⟨rfl, exec_qdOp_of_row (fun _ => rfl) hrow, onSignal_encState_of_row hrow⟩

/-- Settles O24: the row of sample 01, and what follows from a row. -/
theorem qdStep01Result : Obligations.QdStep01Result := by
  unfold Obligations.QdStep01Result
  intro next
  have hrow : ∀ q, qdStep q 0b01#2 = (next q, none) := by
    intro q
    cases q <;> rfl
  exact ⟨rfl, exec_qdOp_of_row (fun _ => rfl) hrow, onSignal_encState_of_row hrow⟩

/-- Settles O25: the row of sample 10, and what follows from a row. -/
theorem qdStep10Result : Obligations.QdStep10Result := by
  unfold Obligations.QdStep10Result
  intro next
  have hrow : ∀ q, qdStep q 0b10#2 = (next q, none) := by
    intro q
    cases q <;> rfl
  exact ⟨rfl, exec_qdOp_of_row (fun _ => rfl) hrow, onSignal_encState_of_row hrow⟩

/-- Settles O26: the row of sample 11, the only one with directions (40_quadrature_decoder.md R78), and what follows
from a row. -/
theorem qdStep11Result : Obligations.QdStep11Result := by
  unfold Obligations.QdStep11Result
  intro next
  have hrow : ∀ q, qdStep q 0b11#2 = ((next q).1, (next q).2) := by
    intro q
    cases q <;> rfl
  exact ⟨rfl, exec_qdOp_of_row (fun _ => rfl) hrow, onSignal_encState_of_row hrow⟩

end Sys2Proof.Machine
end

section
/-!
The button gate (41_button_gate.md R90 to R94). `BG.TRYACCEPT` answers in one equation for the whole truth table; a run of
calls none of which can be accepted changes nothing, whether because the button is up or because the gate is armed.
-/

namespace Sys2Proof.Machine

/-! ### One call -/

/-- The truth table of 41_button_gate.md R90. -/
theorem bgTryAccept_eq (r : Regs) (p : Bool) :
    bgTryAccept r p = ({ r with gateOpen := r.gateOpen && !p }, p && r.gateOpen) := by
  obtain ⟨q, g, n, e⟩ := r
  cases p <;> cases g <;> rfl

theorem bgTryAccept_bgReopen_accepts (r : Regs) : (bgTryAccept (bgReopen r) true).2 = true := by
  rw [bgTryAccept_eq, bgReopen_gateOpen, Bool.and_self]

/-! ### A run of calls -/

theorem gateRun_append (r : Regs) (ps qs : List Bool) :
    gateRun r (ps ++ qs) =
      ((gateRun (gateRun r ps).1 qs).1, (gateRun r ps).2 ++ (gateRun (gateRun r ps).1 qs).2) := by
  induction ps generalizing r with
  | nil => rfl
  | cons p ps ih => simp [gateRun, ih]

theorem gateRun_ignored {r : Regs} {ps : List Bool} (h : ∀ p ∈ ps, (p && r.gateOpen) = false) :
    gateRun r ps = (r, List.replicate ps.length false) := by
  induction ps with
  | nil => rfl
  | cons p ps ih =>
    obtain ⟨hp, hps⟩ := List.forall_mem_cons.mp h
    simp [gateRun, bgTryAccept_ignored hp, ih hps, List.replicate_succ]

/-! ### The events -/

theorem phaseBranch_keeps_gateOpen (pnm : Bool) (r : Regs) (x : Phase) :
    (phaseBranch pnm r x).1.gateOpen = r.gateOpen := by
  obtain ⟨p, hregs, -⟩ := phaseBranch_spec pnm r x
  rw [hregs]

theorem phaseBranch_arm (pnm : Bool) (r : Regs) (x : Phase) : (phaseBranch pnm r x).2.arm = false := by
  obtain ⟨p, -, -, harm, -⟩ := phaseBranch_spec pnm r x
  exact harm

/-- The first call of `OnSignal` is the only one that writes the gate (43_dispatch.md R115). -/
theorem onSignalWith_gateOpen (pnm : Bool) (r : Regs) (raw : Raw) :
    (onSignalWith pnm r raw).1.gateOpen = (bgTryAccept r (button raw)).1.gateOpen := by
  cases h : button raw && r.gateOpen
  · rw [onSignalWith_ignored h, phaseBranch_keeps_gateOpen, bgTryAccept_ignored h]
  · rw [onSignalWith_accepted h, bgTryAccept_accepted h]

/-- With the gate armed nothing is accepted, whatever the button: the event is its phase branch. -/
theorem onSignalWith_armed {r : Regs} (h : r.gateOpen = false) (pnm : Bool) (raw : Raw) :
    onSignalWith pnm r raw = phaseBranch pnm r (phase raw) :=
  onSignalWith_ignored (by rw [h, Bool.and_false])

/-- The button is no bit of the phase (30_encoding.md R57). -/
theorem phase_clear_button (raw : Raw) : phase (raw &&& ~~~4#32) = phase raw := by
  simp [phase_eq_iff]

/-! ### The statements -/

/-- Settles O39: the calls before the press and the calls after it are two runs that change nothing, the first with the
button up, the second with the gate armed. -/
theorem oneAcceptancePerWindow : Obligations.OneAcceptancePerWindow := by
  intro r before after hopen hbefore
  have hup : gateRun r before = (r, List.replicate before.length false) :=
    gateRun_ignored fun p hp => by rw [hbefore p hp, Bool.false_and]
  have hpress : bgTryAccept r true = ({ r with gateOpen := false }, true) :=
    bgTryAccept_accepted (by rw [hopen, Bool.and_self])
  have harmed : gateRun { r with gateOpen := false } after =
      ({ r with gateOpen := false }, List.replicate after.length false) :=
    gateRun_ignored fun p _ => Bool.and_false p
  refine ⟨?_, bgTryAccept_bgReopen_accepts _⟩
  simp only [gateRun_append, hup, gateRun, hpress, harmed]

/-- Settles O27: the truth table, for the operation and for the call with which every encoder-signal event begins. -/
theorem bgTryAcceptResult : Obligations.BgTryAcceptResult := by
  refine ⟨fun p => ?decodes, fun p s => ⟨_, exec_bgTryAccept_eq s p, ?registers, ?answer⟩, fun r raw => ?event⟩
  case decodes => cases p <;> rfl
  case registers => rw [returnFrom_regs, bgTryAccept_eq]
  case answer => rw [returnFrom_result, bgTryAccept_eq]
  case event => rw [onSignal, onSignalWith_gateOpen, bgTryAccept_eq, button]

/-- Settles O28: the operation and the timer event are both `bgReopen`, which writes the gate alone. -/
theorem bgReopenResult : Obligations.BgReopenResult :=
  ⟨rfl, fun s => ⟨returnFrom s (bgReopen s.regs) .none, rfl, returnFrom_regs .., returnFrom_result ..⟩, fun _ => rfl⟩

/-- Settles O38: with the gate armed the event is its phase branch, which does not read the button and arms nothing. -/
theorem armedGateIgnoresPresses : Obligations.ArmedGateIgnoresPresses := by
  intro pnm r raw harmed
  rw [onSignalWith_armed harmed, onSignalWith_armed harmed, phase_clear_button]
  exact ⟨rfl, phaseBranch_arm pnm r (phase raw)⟩

end Sys2Proof.Machine
end

section
/-!
The LED ring (42_led_ring.md R100 to R109). A move is one equation for the ring on and off; with the ring off every register
function of the block but `ResetState` keeps the position, and so does every event and operation built from them (R108).
-/

namespace Sys2Proof.Machine

/-! ### The rendering -/

theorem lrRenderMask_off (p : Pos) : lrRenderMask p false = 0#16 := rfl

theorem lrRenderMask_on (p : Pos) : lrRenderMask p true = BitVec.twoPow 16 p.toNat := rfl

/-- The bit of the position is one of the sixteen, so the shift loses nothing. -/
theorem getLsbD_lrRenderMask_on (p : Pos) (j : Nat) :
    (lrRenderMask p true).getLsbD j = decide (j = p.toNat) := by
  have hp : p.toNat < 16 := p.isLt
  rw [lrRenderMask_on, BitVec.getLsbD_twoPow, decide_eq_true hp, Bool.true_and]
  exact decide_eq_decide.mpr eq_comm

/-! ### The moves -/

theorem lrMover_eq (r : Regs) :
    lrMover r = ({ r with ledNum := if r.ledEnable then r.ledNum - 1#4 else r.ledNum }, r.ledEnable) := by
  obtain ⟨q, g, n, e⟩ := r
  cases e
  case false => exact lrMover_off rfl
  case true => exact lrMover_on rfl

theorem lrMovel_eq (r : Regs) :
    lrMovel r = ({ r with ledNum := if r.ledEnable then r.ledNum + 1#4 else r.ledNum }, r.ledEnable) := by
  obtain ⟨q, g, n, e⟩ := r
  cases e
  case false => exact lrMovel_off rfl
  case true => exact lrMovel_on rfl

/-- One below modulo 16 is fifteen above, so 0 wraps to 15 (42_led_ring.md R100). -/
theorem toNat_pos_sub_one (p : Pos) : (p - 1#4).toNat = (p.toNat + 15) % 16 := by
  rw [BitVec.toNat_sub, Nat.add_comm]
  rfl

theorem toNat_pos_add_one (p : Pos) : (p + 1#4).toNat = (p.toNat + 1) % 16 :=
  BitVec.toNat_add p 1#4

/-- The next state of a move run on its own, read off the equation of the move. -/
theorem exec_move_of_eq {i : Instr} {move : Regs → Regs × Bool} {next : Pos → Pos}
    (hexec : ∀ s, exec i s = .next (returnFrom s (move s.regs).1 (.moved (move s.regs).2)))
    (hmove : ∀ r, move r = ({ r with ledNum := if r.ledEnable then next r.ledNum else r.ledNum }, r.ledEnable))
    (s : State) :
    ∃ t, exec i s = .next t ∧
      t.regs = { s.regs with ledNum := if s.regs.ledEnable then next s.regs.ledNum else s.regs.ledNum } ∧
      t.result = .moved s.regs.ledEnable := by
  refine ⟨_, hexec s, ?_, ?_⟩
  · rw [returnFrom_regs, hmove]
  · rw [returnFrom_result, hmove]

/-! ### The position while the ring is off -/

theorem bgTryAccept_keeps_ledNum (r : Regs) (p : Bool) : (bgTryAccept r p).1.ledNum = r.ledNum := by
  rw [bgTryAccept_eq]

/-- The phase branch moves only a ring that is on. -/
theorem phaseBranch_off_keeps_ledNum {r : Regs} (hoff : r.ledEnable = false) (pnm : Bool) (x : Phase) :
    (phaseBranch pnm r x).1.ledNum = r.ledNum := by
  obtain ⟨p, hregs, hmoved, -⟩ := phaseBranch_spec pnm r x
  rw [hregs]
  by_contra hne
  obtain ⟨hon, -⟩ := hmoved hne
  exact Bool.false_ne_true (hoff.symm.trans hon)

/-- An accepted press toggles the ring and drops the phase, so it moves nothing either. -/
theorem onSignalWith_off_keeps_ledNum {r : Regs} (hoff : r.ledEnable = false) (pnm : Bool) (raw : Raw) :
    (onSignalWith pnm r raw).1.ledNum = r.ledNum := by
  cases h : button raw && r.gateOpen
  · rw [onSignalWith_ignored h, phaseBranch_off_keeps_ledNum hoff]
  · rw [onSignalWith_accepted h]

theorem onBothWith_off_keeps_ledNum {r : Regs} (hoff : r.ledEnable = false) (pnm : Bool) (order : CoincidentOrder)
    (raw : Raw) : (onBothWith pnm order r raw).1.ledNum = r.ledNum := by
  cases order
  · rw [onBothWith_sigFirst, onSignalWith_off_keeps_ledNum hoff]
  · rw [onBothWith_tmrFirst]
    exact onSignalWith_off_keeps_ledNum (r := { r with gateOpen := true }) hoff pnm raw

/-! ### The statements -/

/-- Settles O48: an event takes the registers its handler leaves, an operation those of its function; besides reset
only the handlers of samples and the two moves write the position, and none of them does with the ring off. -/
theorem positionSurvivesDisable : Obligations.PositionSurvivesDisable := by
  intro i s t hoff hrst hexec
  cases i with
  | rst => exact absurd rfl hrst
  | sigP00 raw | sigP01 raw | sigP10 raw | sigP11 raw | sigBtn raw =>
    cases hexec
    exact onSignalWith_off_keeps_ledNum hoff _ raw
  | sigTmr raw =>
    cases hexec
    exact onBothWith_off_keeps_ledNum hoff _ _ raw
  | bgTryAccept pressed =>
    cases hexec
    exact bgTryAccept_keeps_ledNum s.regs pressed
  | lrMover =>
    cases hexec
    rw [returnFrom_regs, lrMover_off hoff]
  | lrMovel =>
    cases hexec
    rw [returnFrom_regs, lrMovel_off hoff]
  | nop | tmr | qdStep00 | qdStep01 | qdStep10 | qdStep11 | bgReopen | lrRender | lrEnable | lrDisable | lrToggle =>
    cases hexec
    rfl

/-- Settles O29: the equation of the move, with the position read modulo 16. -/
theorem lrMoverResult : Obligations.LrMoverResult :=
  ⟨rfl, fun s => ⟨s.regs.ledNum - 1#4, toNat_pos_sub_one _,
    exec_move_of_eq (next := (· - 1#4)) (fun _ => rfl) lrMover_eq s⟩⟩

/-- Settles O30: the equation of the move, with the position read modulo 16. -/
theorem lrMovelResult : Obligations.LrMovelResult :=
  ⟨rfl, fun s => ⟨s.regs.ledNum + 1#4, toNat_pos_add_one _,
    exec_move_of_eq (next := (· + 1#4)) (fun _ => rfl) lrMovel_eq s⟩⟩

/-- Settles O31: each operation enters its function's registers, which differ in `led_enable` alone. -/
theorem lrSwitchResults : Obligations.LrSwitchResults :=
  ⟨rfl, rfl, rfl, fun s =>
    ⟨⟨returnFrom s (lrEnable s.regs) .none, rfl, returnFrom_regs .., returnFrom_result ..⟩,
     ⟨returnFrom s (lrDisable s.regs) .none, rfl, returnFrom_regs .., returnFrom_result ..⟩,
     ⟨returnFrom s (lrToggle s.regs) .none, rfl, returnFrom_regs .., returnFrom_result ..⟩⟩⟩

/-- Settles O32: the operation returns what the port `led_mask` shows, the rendering of the registers. -/
theorem lrRenderResult : Obligations.LrRenderResult := by
  refine ⟨rfl, fun s => ?_⟩
  have hmask : ledMask s = if s.regs.ledEnable then 1#16 <<< s.regs.ledNum.toNat else 0x0000#16 := rfl
  refine ⟨⟨returnFrom s s.regs (.mask (ledMask s)), rfl, returnFrom_regs .., ?_⟩, hmask⟩
  rw [returnFrom_result, hmask]

/-- Settles O41: bit by bit, the rendering of a ring that is on is a power of two. -/
theorem maskIsOneHotOrZero : Obligations.MaskIsOneHotOrZero :=
  fun p => ⟨lrRenderMask_off p, getLsbD_lrRenderMask_on p⟩

end Sys2Proof.Machine
end

section
/-!
The dispatch (43_dispatch.md R115 to R128). `NOP`, `TMR` and `RST` are clock edges without an effect. Every sample's event
is one clock edge of `OnSignal`, so the outcomes of `SIG.P00` to `SIG.P11` are read off the row of `QD_STEP`, those of
`SIG.BTN` and `SIGTMR` off the press (accepted, or ignored with the gate armed). What `OnSignal` publishes and arms is one
equation each, for both readings of `PUBLISH_ON_NOOP_MOVE`.
-/

namespace Sys2Proof.Machine

/-! ### The events that carry no sample -/

theorem cycVector_raw (raw : Raw) : cycVector false false false raw = raw.setWidth 35 := by
  simp [cycVector]

theorem cycVector_tmr_raw (raw : Raw) : cycVector false true false raw = 0x200000000#35 ||| raw.setWidth 35 := by
  simp [cycVector]

theorem decodeCyc_raw (raw : Raw) : decodeCyc (raw.setWidth 35) = .nop := by
  rw [← cycVector_raw]
  exact decodeCyc_of_no_strobe (cycRst_cycVector ..) (cycTmr_cycVector ..) (cycSig_cycVector ..)

theorem decodeCyc_tmr_raw (raw : Raw) : decodeCyc (0x200000000#35 ||| raw.setWidth 35) = .tmr := by
  rw [← cycVector_tmr_raw]
  exact decodeCyc_of_tmr (cycRst_cycVector ..) (cycTmr_cycVector ..) (cycSig_cycVector ..)

theorem exec_nop_eq (s : State) : exec .nop s = .next { s with publish := false, armDebounce := false } := rfl

theorem core_run_succ_of_next {s t : State} (h : step s = .next t) (n : Nat) :
    core.run (n + 1) s = core.run n t := by
  have hcore : core.step s = .next t := h
  simp only [Host.Core.run, hcore]

/-- Any number of `NOP` cycles, one after the other (43_dispatch.md R122). -/
theorem run_nops (raws : List Raw) (s : State) (rest : List Input)
    (h : s.inputs = raws.map (fun raw => .cyc (raw.setWidth 35)) ++ rest) :
    ∃ t, core.run raws.length s = .next t ∧ t.regs = s.regs ∧ t.inputs = rest := by
  induction raws generalizing s with
  | nil => exact ⟨s, rfl, rfl, h⟩
  | cons raw raws ih =>
    have hdecode : decode (presented s) = .ok .nop := by
      rw [presented_cons h]
      exact congrArg Except.ok (decodeCyc_raw raw)
    have hstep : step s = .next { consume s with publish := false, armDebounce := false } :=
      (step_of_decode hdecode).trans (exec_nop_eq _)
    obtain ⟨t, hrun, hregs, hinputs⟩ :=
      ih { consume s with publish := false, armDebounce := false } (congrArg List.tail h)
    exact ⟨t, (core_run_succ_of_next hstep _).trans hrun, hregs, hinputs⟩

/-- The events without a sample have no effect and close no gate. -/
theorem exec_without_sample {i : Instr} (hi : i = .tmr ∨ i = .nop ∨ i = .rst) {s t : State} (h : exec i s = .next t) :
    t.publish = false ∧ t.armDebounce = false ∧ (s.regs.gateOpen = true → t.regs.gateOpen = true) := by
  rcases hi with rfl | rfl | rfl <;> cases h
  · exact ⟨rfl, rfl, fun _ => rfl⟩
  · exact ⟨rfl, rfl, id⟩
  · exact ⟨rfl, rfl, fun _ => rfl⟩

/-! ### The phase branch, by the direction decoded -/

/-- Where a detent moves the cursor of a ring that is on (42_led_ring.md R100, R101). -/
def neighbour : Direction → Pos → Pos
  | .clockwise, p => p - 1#4
  | .counterClockwise, p => p + 1#4

theorem moveFor_some (d : Direction) (r : Regs) :
    moveFor (some d) r =
      ({ r with ledNum := if r.ledEnable then neighbour d r.ledNum else r.ledNum }, r.ledEnable) := by
  cases d
  case clockwise => exact lrMover_eq r
  case counterClockwise => exact lrMovel_eq r

theorem phaseBranch_of_no_direction {r : Regs} {x : Phase} {q : EncState} (hrow : qdStep r.encState x = (q, none))
    (pnm : Bool) : phaseBranch pnm r x = ({ r with encState := q }, noEffect) := by
  simp [phaseBranch, hrow, moveFor, publishesMove, noEffect]

/-- A detent, as 43_dispatch.md R127 decides it: the cursor moves and the move is published only with the ring on. -/
theorem phaseBranch_of_direction {r : Regs} {x : Phase} {q : EncState} {d : Direction}
    (hrow : qdStep r.encState x = (q, some d)) :
    phaseBranch Config.publishOnNoopMove r x =
      ({ r with encState := q, ledNum := if r.ledEnable then neighbour d r.ledNum else r.ledNum },
       { publish := if r.ledEnable then some (1#16 <<< (neighbour d r.ledNum).toNat) else none, arm := false }) := by
  cases hl : r.ledEnable <;>
    simp [phaseBranch, hrow, moveFor_some, hl, publishesMove, Config.publishOnNoopMove, renderRegs, lrRenderMask]

theorem phaseBranch_keeps_ledEnable (pnm : Bool) (r : Regs) (x : Phase) :
    (phaseBranch pnm r x).1.ledEnable = r.ledEnable := by
  obtain ⟨p, hregs, -⟩ := phaseBranch_spec pnm r x
  rw [hregs]

/-! ### A sample with the button up -/

theorem isPhaseSample_of_low_bits {raw : Raw} {x : Phase} (h : raw.extractLsb' 0 3 = x.setWidth 3) :
    isPhaseSample raw x = true := by
  have hbit (j : Nat) (hj : j < 3) : raw.getLsbD j = x.getLsbD j := by
    simpa [hj] using congrArg (fun y : BitVec 3 => y.getLsbD j) h
  refine isPhaseSample_iff.mpr ⟨?_, hbit 1 (by decide), hbit 0 (by decide)⟩
  rw [button, hbit 2 (by decide), BitVec.getLsbD_of_ge x 2 (le_refl 2)]

theorem onSignal_of_isPhaseSample {raw : Raw} {x : Phase} (h : isPhaseSample raw x = true) (r : Regs) :
    onSignal r raw = phaseBranch Config.publishOnNoopMove r x := by
  obtain ⟨hbutton, rfl⟩ : button raw = false ∧ phase raw = x := by simpa [isPhaseSample] using h
  exact onSignalWith_released hbutton r

/-- The next state of a sample's event, read off a row of `QD_STEP` without a direction. -/
theorem exec_sample_of_no_direction {i : Instr} {raw : Raw} {x : Phase} {s : State} {q : EncState}
    (hexec : exec i s = .next (clockEdge s (onSignal s.regs raw))) (hsample : isPhaseSample raw x = true)
    (hrow : qdStep s.regs.encState x = (q, none)) :
    exec i s = .next { s with regs := { s.regs with encState := q }, publish := false, armDebounce := false } := by
  rw [hexec, onSignal_of_isPhaseSample hsample, phaseBranch_of_no_direction hrow]
  rfl

/-- The next state of a sample's event that completes a detent, and the mask it publishes. -/
theorem exec_sample_of_direction {i : Instr} {raw : Raw} {x : Phase} {s : State} {q : EncState} {d : Direction}
    (hexec : exec i s = .next (clockEdge s (onSignal s.regs raw))) (hsample : isPhaseSample raw x = true)
    (hrow : qdStep s.regs.encState x = (q, some d)) :
    exec i s = .next { s with
      regs := { s.regs with
        encState := q, ledNum := if s.regs.ledEnable then neighbour d s.regs.ledNum else s.regs.ledNum },
      publish := s.regs.ledEnable, armDebounce := false } ∧
    (onSignal s.regs raw).2.publish =
      if s.regs.ledEnable then some (1#16 <<< (neighbour d s.regs.ledNum).toNat) else none := by
  rw [hexec, onSignal_of_isPhaseSample hsample, phaseBranch_of_direction hrow]
  refine ⟨?_, rfl⟩
  cases hl : s.regs.ledEnable <;> simp [clockEdge, hl]

/-! ### A sample with the button down -/

theorem lrRenderMask_not (p : Pos) (e : Bool) :
    lrRenderMask p (!e) = if e then 0x0000#16 else 1#16 <<< p.toNat := by
  cases e <;> rfl

/-- With the gate armed an event does not depend on its button. -/
theorem onSignal_armed {r : Regs} (h : r.gateOpen = false) (raw : Raw) :
    onSignal r raw = onSignal r (raw &&& ~~~4#32) := by
  obtain ⟨heq, -⟩ := armedGateIgnoresPresses Config.publishOnNoopMove r raw h
  exact heq

/-- With `OnTimer` first the gate is open when the press is tried, so it is accepted whatever the gate was. -/
theorem onBothWith_tmrFirst_pressed {raw : Raw} (h : raw.getLsbD 2 = true) (pnm : Bool) (r : Regs) :
    onBothWith pnm .tmrFirst r raw =
      ({ r with gateOpen := false, ledEnable := !r.ledEnable },
       { publish := some (lrRenderMask r.ledNum (!r.ledEnable)), arm := true }) := by
  rw [onBothWith_tmrFirst]
  exact onSignalWith_accepted (r := { r with gateOpen := true }) (Bool.and_eq_true_iff.mpr ⟨h, rfl⟩)

/-- With the button up the gate is not read, so both orders are the phase branch with the gate opened. -/
theorem onBothWith_released {raw : Raw} (h : raw.getLsbD 2 = false) (pnm : Bool) (order : CoincidentOrder) (r : Regs) :
    onBothWith pnm order r raw =
      ({ (onSignalWith pnm r raw).1 with gateOpen := true }, (onSignalWith pnm r raw).2) := by
  cases order
  case sigFirst => exact onBothWith_sigFirst pnm r raw
  case tmrFirst => rw [onBothWith_tmrFirst, onSignalWith_released_set_gateOpen h]

/-! ### What `OnSignal` publishes and arms -/

theorem onSignalWith_arm (pnm : Bool) (r : Regs) (raw : Raw) :
    (onSignalWith pnm r raw).2.arm = (button raw && r.gateOpen) := by
  cases h : button raw && r.gateOpen
  · rw [onSignalWith_ignored h, phaseBranch_arm]
  · rw [onSignalWith_accepted h]

/-- `PUBLISH_ON_NOOP_MOVE` enters no register. -/
theorem onSignalWith_regs_eq (pnm pnm' : Bool) (r : Regs) (raw : Raw) :
    (onSignalWith pnm r raw).1 = (onSignalWith pnm' r raw).1 := by
  cases h : button raw && r.gateOpen
  · rw [onSignalWith_ignored h, onSignalWith_ignored h]
    rfl
  · rw [onSignalWith_accepted h, onSignalWith_accepted h]

/-- What is published is always the rendering of the registers after the event. -/
theorem onSignalWith_publish (pnm : Bool) (r : Regs) (raw : Raw) :
    (onSignalWith pnm r raw).2.publish =
      if (button raw && r.gateOpen) || ((qdStep r.encState (phase raw)).2.isSome && (r.ledEnable || pnm)) then
        some (renderRegs (onSignalWith pnm r raw).1)
      else none := by
  cases h : button raw && r.gateOpen
  · obtain ⟨p, -, -, -, hpublish⟩ := phaseBranch_spec pnm r (phase raw)
    rw [onSignalWith_ignored h, hpublish, Bool.false_or]
  · rw [onSignalWith_accepted h]
    rfl

/-- An event that publishes nothing leaves the rendering as it was. -/
theorem renderRegs_onSignalWith_of_no_publish {pnm : Bool} {r : Regs} {raw : Raw}
    (hnone : (onSignalWith pnm r raw).2.publish = none) : renderRegs (onSignalWith pnm r raw).1 = renderRegs r := by
  cases h : button raw && r.gateOpen
  case true =>
    rw [onSignalWith_accepted h] at hnone
    cases hnone
  case false =>
    obtain ⟨p, hregs, hmoved, -, hpublish⟩ := phaseBranch_spec pnm r (phase raw)
    rw [onSignalWith_ignored h] at hnone ⊢
    have hstays : p = r.ledNum := by
      by_contra hne
      obtain ⟨hon, hdir⟩ := hmoved hne
      rw [hpublish, Option.isSome_iff_ne_none.mpr hdir, hon] at hnone
      cases hnone
    rw [hregs, hstays]
    rfl

/-- A latch that shows the rendering before an event shows the rendering after it (43_dispatch.md R132). -/
theorem latchAfter_onSignalWith (pnm : Bool) (r : Regs) (raw : Raw) :
    latchAfter (some (renderRegs r)) [(onSignalWith pnm r raw).2] = some (renderRegs (onSignalWith pnm r raw).1) := by
  cases hpublish : (onSignalWith pnm r raw).2.publish with
  | none => simp [latchAfter, hpublish, renderRegs_onSignalWith_of_no_publish hpublish]
  | some m =>
    have hm := onSignalWith_publish pnm r raw
    rw [hpublish, eq_comm, Option.ite_none_right_eq_some] at hm
    obtain ⟨-, hm⟩ := hm
    simp [latchAfter, hpublish, hm]

/-! ### The statements -/

/-- Settles O13: the ports of a vector that is only `raw`, the event, and an induction on the number of cycles. -/
theorem nopResult : Obligations.NopResult :=
  ⟨fun raw => congrArg Except.ok (decodeCyc_raw raw), exec_nop_eq, run_nops⟩

/-- Settles O19: an accepted press; with the gate armed the button is not read, so the event is that of its phase. -/
theorem sigBtnResult : Obligations.SigBtnResult := by
  intro raw s hdown
  have hexec : exec (.sigBtn raw) s = .next (clockEdge s (onSignal s.regs raw)) := rfl
  refine ⟨decodeEncodeAgree (.sigBtn raw) hdown, fun hopen => ?opened, fun harmed => ?armed⟩
  case opened =>
    have hpress : onSignal s.regs raw = _ := onSignalWith_accepted (Bool.and_eq_true_iff.mpr ⟨hdown, hopen⟩)
    rw [lrRenderMask_not] at hpress
    rw [hexec, hpress]
    exact ⟨rfl, rfl⟩
  case armed =>
    rw [hexec, onSignal_armed harmed]
    split <;> rfl

/-- Settles O20: the two orders by the rules of `OnBoth`, one row of the table of 43_dispatch.md R124 for each case of
the button and the gate. -/
theorem sigTmrResult : Obligations.SigTmrResult := by
  refine ⟨fun raw => congrArg Except.ok (decodeCyc_sigTmrVector raw), fun raw s => ⟨_, _, rfl⟩, fun raw r =>
    ⟨rfl, rfl, fun hup order => ⟨onBothWith_released hup _ order r, ?keeps, ?quiet⟩, fun hdown hopen => ⟨?press, ?_⟩,
      fun hdown harmed => ⟨?ignored, ?_⟩⟩⟩
  case keeps => rw [onSignal, onSignalWith_released hup, phaseBranch_keeps_ledEnable]
  case quiet => rw [onSignal, onSignalWith_released hup, phaseBranch_arm]
  case press =>
    rw [onBoth, onBothWith_sigFirst, onSignalWith_accepted (Bool.and_eq_true_iff.mpr ⟨hdown, hopen⟩)]
  case ignored =>
    rw [← onSignal_armed harmed]
    exact onBothWith_sigFirst _ r raw
  all_goals exact onBothWith_tmrFirst_pressed hdown _ r

/-- Settles O43: one equation for what is published, read with the parameter false and true; the registers, the arm
request and the latch do not depend on it. -/
theorem publishCondition : Obligations.PublishCondition := by
  refine ⟨fun r raw => ⟨?decided, onSignalWith_regs_eq true _ r raw, ?arm, ?other, ?latch⟩,
    fun s t i hi hexec => (exec_without_sample hi hexec).1⟩
  case decided =>
    rw [onSignal, onSignalWith_publish, Config.publishOnNoopMove, Bool.or_false, button, phase]
    cases raw.getLsbD 2 && r.gateOpen <;> simp
  case arm => rw [onSignal, onSignalWith_arm, onSignalWith_arm]
  case other =>
    rw [onSignalWith_publish, Bool.or_true, Bool.and_true, onSignalWith_regs_eq true Config.publishOnNoopMove]
    rfl
  case latch =>
    rw [onSignal, latchAfter_onSignalWith, latchAfter_onSignalWith, onSignalWith_regs_eq true]

/-- Settles O44: an arm request, an accepted press and a gate that closes are one condition on the button and the gate. -/
theorem armCondition : Obligations.ArmCondition := by
  refine ⟨fun pnm r raw => ⟨?closes, ?accepts⟩, fun r => ⟨rfl, rfl⟩,
    fun s t i hi hexec => (exec_without_sample hi hexec).2⟩
  case closes =>
    rw [onSignalWith_arm, onSignalWith_gateOpen, bgTryAccept_eq]
    cases button raw <;> cases r.gateOpen <;> simp
  case accepts => rw [onSignalWith_arm, bgTryAccept_eq, button]

/-- Settles O12: bit 34 alone decides the event, and its clock edge takes `Regs.reset` and no effect. -/
theorem rstResult : Obligations.RstResult :=
  ⟨fun _ hrst => congrArg Except.ok (decodeCyc_of_rst hrst), fun _ => rfl⟩

/-- Settles O14: the ports of the vector, and the clock edge of `OnTimer`. -/
theorem tmrResult : Obligations.TmrResult :=
  ⟨fun raw => congrArg Except.ok (decodeCyc_tmr_raw raw), fun _ => rfl⟩

/-- Settles O15: the row of sample 00, which has no direction. -/
theorem sigP00Result : Obligations.SigP00Result := by
  intro raw s hlow
  have hsample : isPhaseSample raw 0b00#2 = true := isPhaseSample_of_low_bits hlow
  refine ⟨decodeEncodeAgree (.sigP00 raw) hsample, exec_sample_of_no_direction rfl hsample ?_⟩
  cases s.regs.encState <;> rfl

/-- Settles O16: the row of sample 01, which has no direction. -/
theorem sigP01Result : Obligations.SigP01Result := by
  intro raw s hlow
  have hsample : isPhaseSample raw 0b01#2 = true := isPhaseSample_of_low_bits hlow
  refine ⟨decodeEncodeAgree (.sigP01 raw) hsample, exec_sample_of_no_direction rfl hsample ?_⟩
  cases s.regs.encState <;> rfl

/-- Settles O17: the row of sample 10, which has no direction. -/
theorem sigP10Result : Obligations.SigP10Result := by
  intro raw s hlow
  have hsample : isPhaseSample raw 0b10#2 = true := isPhaseSample_of_low_bits hlow
  refine ⟨decodeEncodeAgree (.sigP10 raw) hsample, exec_sample_of_no_direction rfl hsample ?_⟩
  cases s.regs.encState <;> rfl

/-- Settles O18: the row of sample 11, state by state; only the third state of a path completes a detent. -/
theorem sigP11Result : Obligations.SigP11Result := by
  intro raw s hlow
  have hsample : isPhaseSample raw 0b11#2 = true := isPhaseSample_of_low_bits hlow
  refine ⟨decodeEncodeAgree (.sigP11 raw) hsample, fun hq => ?clockwise, fun hq => ?counterClockwise,
    fun hq => ?abandoned, fun hq => ?ignored⟩
  case clockwise => exact exec_sample_of_direction (d := .clockwise) rfl hsample (by rw [hq]; rfl)
  case counterClockwise => exact exec_sample_of_direction (d := .counterClockwise) rfl hsample (by rw [hq]; rfl)
  case abandoned => exact exec_sample_of_no_direction rfl hsample (by rcases hq with hq | hq <;> rw [hq] <;> rfl)
  case ignored =>
    exact exec_sample_of_no_direction (q := s.regs.encState) rfl hsample
      (by rcases hq with hq | hq | hq <;> rw [hq] <;> rfl)

end Sys2Proof.Machine
end

section
/-!
No failure on any input (60_exceptions.md R136). Every word that the formats express decodes, and no instruction stops,
so the step answers; it takes one word off those to come and leaves the rest, so the premise holds again. A run follows
by induction on the number of steps.
-/

namespace Sys2Proof.Machine

/-! ### Expressible words -/

theorem expressible_uop_iff {u : Uop} : expressible (.uop u) = true ↔ ¬(u = 0x7#4 ∨ u = 0xE#4 ∨ u = 0xF#4) := by
  simp [expressible, and_assoc]

/-- The decoder takes every word that the formats express: a vector always, a code by 30_encoding.md R66. -/
theorem exists_decode_of_expressible {w : Input} (h : expressible w = true) : ∃ i, decode w = .ok i := by
  cases w with
  | cyc v => exact ⟨decodeCyc v, rfl⟩
  | uop u => exact (reservedUopCodesRefused u).2 (expressible_uop_iff.mp h)
  | stray nbits w => cases h

theorem inputsExpressible_iff {s : State} :
    inputsExpressible s = true ↔ ∀ w ∈ s.inputs, expressible w = true :=
  List.all_eq_true

/-- The word a step reads is expressible too when no word is presented: it is then the vector of a `NOP`. -/
theorem expressible_presented {s : State} (h : inputsExpressible s = true) : expressible (presented s) = true := by
  cases hs : s.inputs with
  | nil => simp [presented, hs, expressible]
  | cons w rest =>
    rw [presented_cons hs]
    exact inputsExpressible_iff.mp h w (by simp [hs])

theorem inputsExpressible_consume {s : State} (h : inputsExpressible s = true) :
    inputsExpressible (consume s) = true :=
  inputsExpressible_iff.mpr fun w hw => inputsExpressible_iff.mp h w (List.mem_of_mem_tail hw)

/-! ### The step and the run -/

theorem step_keeps_inputsExpressible {s : State} (h : inputsExpressible s = true) :
    ∃ t, step s = .next t ∧ inputsExpressible t = true := by
  obtain ⟨i, hdecode⟩ := exists_decode_of_expressible (expressible_presented h)
  obtain ⟨t, hexec, hinputs⟩ := exec_next i (consume s)
  refine ⟨t, (step_of_decode hdecode).trans hexec, ?_⟩
  rw [inputsExpressible, hinputs]
  exact inputsExpressible_consume h

/-- From a state of an invariant under which every step answers, a run of any length ends in a state of it. -/
theorem run_of_step_invariant {P : State → Prop} (hstep : ∀ s, P s → ∃ t, step s = .next t ∧ P t) (n : Nat) (s : State)
    (hs : P s) : ∃ t, core.run n s = .next t ∧ P t := by
  induction n generalizing s with
  | zero => exact ⟨s, rfl, hs⟩
  | succ n ih =>
    obtain ⟨t, ht, hPt⟩ := hstep s hs
    rw [core_run_succ_of_next ht]
    exact ih t hPt

/-! ### The statement -/

/-- Settles O50: expressible inputs are an invariant under which every step answers. -/
theorem everyExpressibleInputIsTaken : Obligations.EveryExpressibleInputIsTaken := by
  refine ⟨fun s => step_keeps_inputsExpressible, fun n s hs => ?_⟩
  obtain ⟨t, hrun, -⟩ := run_of_step_invariant (fun s => step_keeps_inputsExpressible) n s hs
  exact ⟨t, hrun⟩

end Sys2Proof.Machine
end

section
/-!
The two orders of a coincidence (70_reset_and_hazards.md R171). With the button up neither handler reads what the other
writes, so the orders agree. With it down the gate tells them apart: whatever it was before, the handler that comes last
decides it, `OnTimer` opening it and the accepted press closing it.
-/

namespace Sys2Proof.Machine

/-- With `OnTimer` last the gate is open. -/
theorem onBothWith_sigFirst_gateOpen (pnm : Bool) (r : Regs) (raw : Raw) :
    (onBothWith pnm .sigFirst r raw).1.gateOpen = true := by
  rw [onBothWith_sigFirst]

/-- With a press last the gate is armed: `OnTimer` has opened it, so the press is accepted. -/
theorem onBothWith_tmrFirst_pressed_gateOpen {raw : Raw} (h : raw.getLsbD 2 = true) (pnm : Bool) (r : Regs) :
    (onBothWith pnm .tmrFirst r raw).1.gateOpen = false := by
  rw [onBothWith_tmrFirst_pressed h]

theorem onBothWith_order_irrelevant_of_released {raw : Raw} (h : raw.getLsbD 2 = false) (pnm : Bool) (r : Regs) :
    onBothWith pnm .sigFirst r raw = onBothWith pnm .tmrFirst r raw := by
  rw [onBothWith_released h, onBothWith_released h]

theorem onBothWith_orders_differ_of_pressed {raw : Raw} (h : raw.getLsbD 2 = true) (pnm : Bool) (r : Regs) :
    onBothWith pnm .sigFirst r raw ≠ onBothWith pnm .tmrFirst r raw := by
  intro heq
  have hgate := congrArg (fun result => result.1.gateOpen) heq
  simp only [onBothWith_sigFirst_gateOpen, onBothWith_tmrFirst_pressed_gateOpen h] at hgate
  cases hgate

/-- Settles O21: the orders agree with the button up, and leave different gates with it down. -/
theorem coincidenceOrderMattersIffButton : Obligations.CoincidenceOrderMattersIffButton := by
  intro r raw
  constructor
  · intro hdiffer
    by_contra hup
    exact hdiffer (onBothWith_order_irrelevant_of_released (Bool.eq_false_of_not_eq_true hup) _ r)
  · exact fun hdown => onBothWith_orders_differ_of_pressed hdown _ r

end Sys2Proof.Machine
end

section
/-!
Sequences of events (00_scope.md R12). What holds of one handler holds of the run by induction on the events: a latch that
shows the rendering goes on showing it (43_dispatch.md R132), and a gate that is armed exactly while a window runs stays so,
so that the block arms only while none runs (60_exceptions.md R145).
-/

namespace Sys2Proof.Machine

/-! ### Runs -/

@[simp] theorem runEvents_nil (pnm : Bool) (r : Regs) : runEvents pnm r [] = (r, []) := rfl

@[simp] theorem runEvents_cons (pnm : Bool) (r : Regs) (e : Event) (es : List Event) :
    runEvents pnm r (e :: es) =
      ((runEvents pnm (handle pnm r e).1 es).1, (handle pnm r e).2 :: (runEvents pnm (handle pnm r e).1 es).2) := rfl

theorem runEvents_append (pnm : Bool) (r : Regs) (es fs : List Event) :
    runEvents pnm r (es ++ fs) =
      ((runEvents pnm (runEvents pnm r es).1 fs).1,
        (runEvents pnm r es).2 ++ (runEvents pnm (runEvents pnm r es).1 fs).2) := by
  induction es generalizing r with
  | nil => rfl
  | cons e es ih => simp [ih]

/-! ### The display -/

theorem handle_publish {pnm : Bool} {r : Regs} {e : Event} {m : Mask} (h : (handle pnm r e).2.publish = some m) :
    m = renderRegs (handle pnm r e).1 := by
  cases e with
  | tmr => cases h
  | sig raw =>
    have hm : (onSignalWith pnm r raw).2.publish = some m := h
    rw [onSignalWith_publish, Option.ite_none_right_eq_some] at hm
    obtain ⟨-, hm⟩ := hm
    exact (Option.some.inj hm).symm

theorem renderRegs_handle_of_no_publish {pnm : Bool} {r : Regs} {e : Event} (h : (handle pnm r e).2.publish = none) :
    renderRegs (handle pnm r e).1 = renderRegs r := by
  cases e with
  | tmr => rfl
  | sig raw => exact renderRegs_onSignalWith_of_no_publish h

theorem renderRegs_runEvents_of_no_publish {pnm : Bool} {r : Regs} {es : List Event}
    (h : ∀ f ∈ (runEvents pnm r es).2, f.publish = none) : renderRegs (runEvents pnm r es).1 = renderRegs r := by
  induction es generalizing r with
  | nil => rfl
  | cons e es ih =>
    obtain ⟨he, hes⟩ := List.forall_mem_cons.mp h
    exact (ih hes).trans (renderRegs_handle_of_no_publish he)

/-- After an event the latch shows the rendering if it did before, and also if the event published. -/
theorem latch_after_handle {pnm : Bool} {r : Regs} {e : Event} {disp : Option Mask}
    (h : disp = some (renderRegs r) ∨ (handle pnm r e).2.publish ≠ none) :
    ((handle pnm r e).2.publish.orElse fun _ => disp) = some (renderRegs (handle pnm r e).1) := by
  cases hp : (handle pnm r e).2.publish with
  | none =>
    obtain rfl : disp = some (renderRegs r) := h.resolve_right (not_not_intro hp)
    rw [renderRegs_handle_of_no_publish hp]
    rfl
  | some m =>
    rw [← handle_publish hp]
    rfl

theorem latchAfter_runEvents_of_shows (pnm : Bool) (r : Regs) (es : List Event) :
    latchAfter (some (renderRegs r)) (runEvents pnm r es).2 = some (renderRegs (runEvents pnm r es).1) := by
  induction es generalizing r with
  | nil => rfl
  | cons e es ih =>
    simp only [runEvents_cons, latchAfter]
    rw [latch_after_handle (.inl rfl), ih]

/-- Settles O54: up to the first publish the latch is as before; the publish makes it show the rendering, and then it goes
on showing it. -/
theorem displayFollowsState : Obligations.DisplayFollowsState := by
  intro pnm r es disp hpublished
  induction es generalizing r disp with
  | nil =>
    obtain ⟨f, hf, -⟩ := hpublished
    cases hf
  | cons e es ih =>
    simp only [runEvents_cons, latchAfter]
    by_cases hp : (handle pnm r e).2.publish = none
    · obtain ⟨f, hf, hne⟩ := hpublished
      obtain rfl | hlater := List.mem_cons.mp hf
      · exact absurd hp hne
      · exact ih _ _ ⟨f, hlater, hne⟩
    · rw [latch_after_handle (.inr hp), latchAfter_runEvents_of_shows]

/-! ### The window -/

@[simp] theorem handle_tmr (pnm : Bool) (r : Regs) : handle pnm r .tmr = (bgReopen r, noEffect) := rfl

@[simp] theorem handle_sig (pnm : Bool) (r : Regs) (raw : Raw) : handle pnm r (.sig raw) = onSignalWith pnm r raw := rfl

theorem onSignalWith_gateOpen_eq (pnm : Bool) (r : Regs) (raw : Raw) :
    (onSignalWith pnm r raw).1.gateOpen = (r.gateOpen && !button raw) := by
  rw [onSignalWith_gateOpen, bgTryAccept_eq]

theorem pulsesOf_sig (pnm : Bool) (r : Regs) (raw : Raw) :
    pulsesOf pnm r [.sig raw] = if button raw && r.gateOpen then [.arm] else [] := by
  simp [pulsesOf, onSignalWith_arm]

theorem pulsesOf_cons (pnm : Bool) (r : Regs) (e : Event) (es : List Event) :
    pulsesOf pnm r (e :: es) = pulsesOf pnm r [e] ++ pulsesOf pnm (handle pnm r e).1 es := by
  cases e with
  | tmr => rfl
  | sig raw => simp [pulsesOf]

/-- An event arms only a gate that is open, so while no window runs. -/
theorem handle_arms_outside_window {pnm : Bool} {r : Regs} {w : Bool} (hgate : r.gateOpen = !w) {e : Event}
    (harm : (handle pnm r e).2.arm = true) : w = false := by
  cases e with
  | tmr => cases harm
  | sig raw =>
    rw [handle_sig, onSignalWith_arm, hgate] at harm
    simpa using (Bool.and_eq_true_iff.mp harm).2

/-- After an event the gate is again armed exactly while a window runs. -/
theorem handle_gateOpen {pnm : Bool} {r : Regs} {w : Bool} (hgate : r.gateOpen = !w) (e : Event) :
    (handle pnm r e).1.gateOpen = !windowAfter w (pulsesOf pnm r [e]) := by
  cases e with
  | tmr => rfl
  | sig raw =>
    rw [handle_sig, onSignalWith_gateOpen_eq, pulsesOf_sig, hgate]
    cases w <;> cases button raw <;> rfl

/-- One event keeps the contract: the arm is the block's half, the expiry the timer's. -/
theorem timerOneShot_pulsesOf_singleton {pnm : Bool} {r : Regs} {w : Bool} (hgate : r.gateOpen = !w) {e : Event}
    (hexpiry : expiriesAnswerArms w (pulsesOf pnm r [e]) = true) : timerOneShot w (pulsesOf pnm r [e]) = true := by
  cases e with
  | tmr => exact hexpiry
  | sig raw =>
    rw [pulsesOf_sig, hgate]
    cases w <;> cases button raw <;> rfl

theorem timerOneShot_pulsesOf {pnm : Bool} {r : Regs} {w : Bool} (hgate : r.gateOpen = !w) {es : List Event}
    (hexpiry : expiriesAnswerArms w (pulsesOf pnm r es) = true) : timerOneShot w (pulsesOf pnm r es) = true := by
  induction es generalizing r w with
  | nil => rfl
  | cons e es ih =>
    rw [pulsesOf_cons] at hexpiry ⊢
    rw [expiriesAnswerArms_append, Bool.and_eq_true] at hexpiry
    rw [timerOneShot_append, Bool.and_eq_true]
    obtain ⟨hfirst, hrest⟩ := hexpiry
    exact ⟨timerOneShot_pulsesOf_singleton hgate hfirst, ih (handle_gateOpen hgate e) hrest⟩

/-- Settles O55: one event, and then an induction on the sequence. -/
theorem blockKeepsTimerOneShot : Obligations.BlockKeepsTimerOneShot :=
  fun _ _ _ hgate =>
    ⟨fun e _ => ⟨handle_arms_outside_window hgate, handle_gateOpen hgate e⟩, fun _ => timerOneShot_pulsesOf hgate⟩

end Sys2Proof.Machine
end

section
/-!
One clock cycle without reset is the run of its handlers (43_dispatch.md R125, R126), and a run of cycles the run of all their
handlers. At most one handler of a cycle takes a sample, so the two pulses tell what the cycle did to the gate and the enable
bit.
-/

namespace Sys2Proof.Machine

/-! ### The handlers of a cycle -/

theorem handlersOf_of_no_strobe {v : Cyc} (htmr : cycTmr v = false) (hsig : cycSig v = false) (order : CoincidentOrder) :
    handlersOf order v = [] := by
  simp [handlersOf, htmr, hsig]

theorem handlersOf_of_tmr {v : Cyc} (htmr : cycTmr v = true) (hsig : cycSig v = false) (order : CoincidentOrder) :
    handlersOf order v = [.tmr] := by
  simp [handlersOf, htmr, hsig]

theorem handlersOf_sigVector (order : CoincidentOrder) (raw : Raw) : handlersOf order (sigVector raw) = [.sig raw] := by
  simp [handlersOf]

theorem handlersOf_sigTmrVector (order : CoincidentOrder) (raw : Raw) :
    handlersOf order (sigTmrVector raw) =
      match order with
      | .sigFirst => [.sig raw, .tmr]
      | .tmrFirst => [.tmr, .sig raw] := by
  cases order <;> simp [handlersOf]

theorem handle_arm_publishes {pnm : Bool} {r : Regs} {e : Event} (h : (handle pnm r e).2.arm = true) :
    (handle pnm r e).2.publish.isSome = true := by
  cases e with
  | tmr => cases h
  | sig raw =>
    rw [handle_sig, onSignalWith_arm] at h
    rw [handle_sig, onSignalWith_accepted h]
    rfl

theorem runEvents_arm_publishes {pnm : Bool} {r : Regs} {es : List Event}
    (h : (runEvents pnm r es).2.any (·.arm) = true) : (runEvents pnm r es).2.any (·.publish.isSome) = true := by
  induction es generalizing r with
  | nil => cases h
  | cons e es ih =>
    simp only [runEvents_cons, List.any_cons, Bool.or_eq_true] at h ⊢
    exact h.imp handle_arm_publishes ih

/-- Of the two handlers only `OnSignal` arms, and only with the button down. -/
theorem sample_of_cycle_arm {pnm : Bool} {r : Regs} {order : CoincidentOrder} {v : Cyc}
    (h : (runEvents pnm r (handlersOf order v)).2.any (·.arm) = true) :
    cycSig v = true ∧ button (cycRaw v) = true := by
  revert h
  fun_cases handlersOf order v <;> simp_all [onSignalWith_arm, noEffect]

theorem onSignalWith_ledEnable (pnm : Bool) (r : Regs) (raw : Raw) :
    (onSignalWith pnm r raw).1.ledEnable = (r.ledEnable ^^ (onSignalWith pnm r raw).2.arm) := by
  cases h : button raw && r.gateOpen
  · rw [onSignalWith_ignored h, phaseBranch_keeps_ledEnable, phaseBranch_arm, Bool.xor_false]
  · rw [onSignalWith_accepted h, Bool.xor_true]

/-- The enable bit flips exactly in the cycles whose handlers arm. -/
theorem cycle_ledEnable (pnm : Bool) (r : Regs) (order : CoincidentOrder) (v : Cyc) :
    (runEvents pnm r (handlersOf order v)).1.ledEnable =
      (r.ledEnable ^^ (runEvents pnm r (handlersOf order v)).2.any (·.arm)) := by
  fun_cases handlersOf order v <;> simp [onSignalWith_ledEnable, noEffect]

/-- An arm needs a gate that is open or opened in the same cycle. -/
theorem gate_of_cycle_arm {pnm : Bool} {r : Regs} {order : CoincidentOrder} {v : Cyc}
    (h : (runEvents pnm r (handlersOf order v)).2.any (·.arm) = true) : (r.gateOpen || cycTmr v) = true := by
  revert h
  fun_cases handlersOf order v <;> simp_all [onSignalWith_arm, noEffect]

/-- When the timer expires only with the gate armed, the gate ends open exactly if it was or the timer opened it, and no
press was accepted. -/
theorem cycle_gateOpen (pnm : Bool) {r : Regs} (order : CoincidentOrder) {v : Cyc}
    (harmed : cycTmr v = true → r.gateOpen = false) :
    (runEvents pnm r (handlersOf order v)).1.gateOpen =
      ((r.gateOpen || cycTmr v) && !(runEvents pnm r (handlersOf order v)).2.any (·.arm)) := by
  revert harmed
  fun_cases handlersOf order v <;> intro harmed <;>
    simp_all [onSignalWith_arm, onSignalWith_gateOpen_eq, noEffect, Bool.and_or_distrib_left]

theorem onSignalWith_publish_some {pnm : Bool} {r : Regs} {raw : Raw} {m : Mask}
    (h : (onSignalWith pnm r raw).2.publish = some m) : m = renderRegs (onSignalWith pnm r raw).1 :=
  handle_publish (e := .sig raw) h

/-- A mask that a handler of the cycle publishes is the rendering of the registers the cycle ends in: `OnTimer` after
`OnSignal` does not change it. -/
theorem cycle_publish {pnm : Bool} {r : Regs} {order : CoincidentOrder} {v : Cyc} {f : Effect} {m : Mask}
    (hf : f ∈ (runEvents pnm r (handlersOf order v)).2) (hm : f.publish = some m) :
    m = renderRegs (runEvents pnm r (handlersOf order v)).1 := by
  have hquiet : f ≠ noEffect := by
    rintro rfl
    cases hm
  revert hf
  fun_cases handlersOf order v <;> intro hf <;>
    simp only [runEvents_nil, runEvents_cons, handle_sig, handle_tmr, List.mem_cons, List.not_mem_nil, hquiet, or_false,
      false_or] at hf <;>
    subst hf <;> exact onSignalWith_publish_some hm

/-! ### The step -/

/-- The state `t` is what a cycle with the ports `v` leaves of the state `s`, its handlers run in this order. -/
structure CycleFrom (s : State) (v : Cyc) (order : CoincidentOrder) (t : State) : Prop where
  inputs : t.inputs = s.inputs.tail
  result : t.result = s.result
  regs : t.regs = (runEvents Config.publishOnNoopMove s.regs (handlersOf order v)).1
  publish : t.publish = (runEvents Config.publishOnNoopMove s.regs (handlersOf order v)).2.any (·.publish.isSome)
  arm : t.armDebounce = (runEvents Config.publishOnNoopMove s.regs (handlersOf order v)).2.any (·.arm)

theorem onBothWith_eq_runEvents (pnm : Bool) (order : CoincidentOrder) (r : Regs) (raw : Raw) :
    (onBothWith pnm order r raw).1 = (runEvents pnm r (handlersOf order (sigTmrVector raw))).1 ∧
    (onBothWith pnm order r raw).2.publish.isSome =
      (runEvents pnm r (handlersOf order (sigTmrVector raw))).2.any (·.publish.isSome) ∧
    (onBothWith pnm order r raw).2.arm = (runEvents pnm r (handlersOf order (sigTmrVector raw))).2.any (·.arm) := by
  rw [handlersOf_sigTmrVector]
  cases order <;> simp [onBothWith, onTimer, noEffect]

/-- The five kinds of vector but reset, each with the handlers it runs. -/
theorem step_cycle {s : State} {v : Cyc} (hv : presented s = .cyc v) (hrst : cycRst v = false) :
    ∃ t order, step s = .next t ∧ CycleFrom s v order t := by
  have hstep : step s = exec (decodeCyc v) (consume s) :=
    step_of_decode (by rw [hv, decode])
  rw [hstep]
  rcases cyc_cases v with h | ⟨-, htmr, hsig⟩ | ⟨-, htmr, hsig⟩ | ⟨raw, rfl⟩ | ⟨raw, rfl⟩
  · rw [hrst] at h
    cases h
  · rw [decodeCyc_of_no_strobe hrst htmr hsig]
    refine ⟨_, .sigFirst, rfl, rfl, rfl, ?_, ?_, ?_⟩ <;> rw [handlersOf_of_no_strobe htmr hsig] <;> rfl
  · rw [decodeCyc_of_tmr hrst htmr hsig]
    refine ⟨_, .sigFirst, rfl, rfl, rfl, ?_, ?_, ?_⟩ <;> rw [handlersOf_of_tmr htmr hsig] <;> rfl
  · rw [exec_decodeCyc_sigVector]
    refine ⟨_, .sigFirst, rfl, rfl, rfl, ?_, ?_, ?_⟩ <;> simp [handlersOf_sigVector, onSignal]
  · rw [decodeCyc_sigTmrVector]
    obtain ⟨hregs, hpublish, harm⟩ :=
      onBothWith_eq_runEvents Config.publishOnNoopMove (Config.coincidentOrder s.coincidences) s.regs raw
    exact ⟨_, _, rfl, rfl, rfl, hregs, hpublish, harm⟩

/-! ### The statements -/

/-- Settles O52: the cycle is the run of its handlers, whose effects the output registers collect. -/
theorem cycleRunsItsHandlers : Obligations.CycleRunsItsHandlers := by
  intro v rest s hs hrst
  obtain ⟨t, order, hstep, hcycle⟩ := step_cycle (presented_cons hs) hrst
  refine ⟨t, order, hstep, ?_, hcycle.result, hcycle.regs, ?_, ?_, fun f hf m hm => ?_⟩
  · rw [hcycle.inputs, hs, List.tail_cons]
  · rw [hcycle.publish, List.any_eq_true]
    simp only [Option.isSome_iff_ne_none]
  · rw [hcycle.arm, List.any_eq_true]
  · rw [cycle_publish hf hm, ledMask, hcycle.regs]

/-- Settles O53: an induction on the cycles; the handlers of the first cycle run before those of the others. -/
theorem cycleLayerRefinesEventLayer : Obligations.CycleLayerRefinesEventLayer := by
  intro vs
  induction vs with
  | nil => exact fun _ s rest hs => ⟨[], rfl, s, rfl, hs, rfl⟩
  | cons v vs ih =>
    intro hrst s rest hs
    obtain ⟨hv, hvs⟩ := List.forall_mem_cons.mp hrst
    obtain ⟨t, order, hstep, hcycle⟩ := step_cycle (presented_cons hs) hv
    have ht : t.inputs = vs.map .cyc ++ rest := by
      rw [hcycle.inputs, hs]
      rfl
    obtain ⟨orders, hlength, u, hrun, hinputs, hregs⟩ := ih hvs t rest ht
    refine ⟨order :: orders, congrArg (· + 1) hlength, u, (core_run_succ_of_next hstep _).trans hrun, hinputs, ?_⟩
    rw [hregs, hcycle.regs, List.zipWith_cons_cons, List.flatten_cons, runEvents_append]

/-- Settles O49: `led_enable` flips exactly in the cycles that arm, and an arm comes from a press. -/
theorem enableChangesOnlyByPressOrReset : Obligations.EnableChangesOnlyByPressOrReset := by
  intro v rest s t hs hstep hchanged
  refine (Bool.eq_false_or_eq_true (v.getLsbD 34)).imp id fun hrst => ?_
  obtain ⟨t', order, hstep', hcycle⟩ := step_cycle (presented_cons hs) hrst
  obtain rfl : t' = t := Host.Outcome.next.inj (hstep'.symm.trans hstep)
  have hflip : t'.regs.ledEnable = (s.regs.ledEnable ^^ t'.armDebounce) := by
    rw [hcycle.regs, hcycle.arm, cycle_ledEnable]
  have harm : t'.armDebounce = true := by
    by_contra hquiet
    rw [Bool.eq_false_of_not_eq_true hquiet, Bool.xor_false] at hflip
    exact hchanged hflip
  have harms := hcycle.arm.symm.trans harm
  obtain ⟨hsig, hbutton⟩ := sample_of_cycle_arm harms
  refine ⟨hsig, ?_, hcycle.publish.trans (runEvents_arm_publishes harms), harm, ?_⟩
  · simpa [button, cycRaw] using hbutton
  · rw [hflip, harm, Bool.xor_true]

/-- An instruction sets the two outputs from an effect, which arms only with a publish, or leaves both. -/
theorem exec_keeps_arm_with_publish {i : Instr} {s t : State} (hs : s.armDebounce = true → s.publish = true)
    (hexec : exec i s = .next t) : t.armDebounce = true → t.publish = true := by
  have hsample (raw : Raw) : (onSignal s.regs raw).2.arm = true → (onSignal s.regs raw).2.publish.isSome = true :=
    handle_arm_publishes (e := .sig raw)
  cases i with
  | rst | nop | tmr =>
    cases hexec
    exact fun h => nomatch h
  | sigP00 raw | sigP01 raw | sigP10 raw | sigP11 raw | sigBtn raw =>
    cases hexec
    exact hsample raw
  | sigTmr raw =>
    cases hexec
    obtain ⟨-, hpublish, harm⟩ :=
      onBothWith_eq_runEvents Config.publishOnNoopMove (Config.coincidentOrder s.coincidences) s.regs raw
    exact fun h => hpublish.trans (runEvents_arm_publishes (harm.symm.trans h))
  | qdStep00 | qdStep01 | qdStep10 | qdStep11 | bgTryAccept | bgReopen | lrRender | lrMover | lrMovel | lrEnable
  | lrDisable | lrToggle =>
    cases hexec
    exact hs

/-- A step that answers has run an instruction. -/
theorem exists_exec_of_step {s t : State} (h : step s = .next t) : ∃ i, exec i (consume s) = .next t := by
  cases hdecode : decode (presented s) with
  | ok i => exact ⟨i, (step_of_decode hdecode).symm.trans h⟩
  | error e =>
    rw [step_of_error hdecode] at h
    cases h

/-- Settles O51: every instruction keeps it, and taking a word off the inputs touches no output. -/
theorem armPulseComesWithPublish : Obligations.ArmPulseComesWithPublish := by
  intro s t hs hstep
  obtain ⟨i, hexec⟩ := exists_exec_of_step hstep
  exact exec_keeps_arm_with_publish (s := consume s) hs hexec

end Sys2Proof.Machine
end

section
/-!
The block closed with the reference timer and the LED driver's latch (60_exceptions.md R145 to R147), and the block beside a free
timer. A cycle is that of the block with the timer's `tmr_expired` on its port. Where the timer expires only with the gate armed,
`cycle_gateOpen` says how the gate and the arm pulse follow from one cycle to the next.
-/

namespace Sys2Proof.Machine

/-! ### A cycle of the closed system -/

theorem step_drivePorts_rst (s : State) {v : Cyc} (hrst : cycRst v = true) :
    step (drivePorts s v) =
      .next { s with regs := Regs.reset, publish := false, armDebounce := false, inputs := [] } := by
  have hdecode : decode (presented (drivePorts s v)) = .ok .rst := congrArg Except.ok (decodeCyc_of_rst hrst)
  exact step_of_decode hdecode

theorem systemStep_of_next {ticks : Nat} {e : EnvInput} {y : System} {b : State}
    (h : step (drivePorts y.block (cycVector e.rst y.timer.expired e.sigValid e.raw)) = .next b) :
    systemStep ticks e y =
      .next { block := b, timer := refTimerTick ticks e.rst y.block.armDebounce y.timer,
              disp := latchTick y.block y.disp } := by
  simp only [systemStep, h]

/-- The vector of a cycle of the closed system without reset. -/
def cycleVector (e : EnvInput) (y : System) : Cyc := cycVector false y.timer.expired e.sigValid e.raw

@[simp] theorem cycTmr_cycleVector (e : EnvInput) (y : System) : cycTmr (cycleVector e y) = y.timer.expired :=
  cycTmr_cycVector ..

@[simp] theorem cycSig_cycleVector (e : EnvInput) (y : System) : cycSig (cycleVector e y) = e.sigValid :=
  cycSig_cycVector ..

/-- A cycle of the closed system without reset: the block runs its handlers, the timer ticks, the latch follows. -/
theorem systemStep_without_rst (ticks : Nat) {e : EnvInput} (hrst : e.rst = false) (y : System) :
    ∃ b order, CycleFrom (drivePorts y.block (cycleVector e y)) (cycleVector e y) order b ∧
      systemStep ticks e y =
        .next { block := b, timer := refTimerTick ticks false y.block.armDebounce y.timer,
                disp := latchTick y.block y.disp } := by
  obtain ⟨b, order, hstep, hcycle⟩ :=
    step_cycle (s := drivePorts y.block (cycleVector e y)) (v := cycleVector e y) rfl (cycRst_cycVector ..)
  refine ⟨b, order, hcycle, ?_⟩
  rw [← hrst]
  exact systemStep_of_next (by rw [hrst]; exact hstep)

/-! ### The gate, the arm pulse and the enable bit from one cycle to the next -/

theorem CycleFrom.gateOpen {s t : State} {v : Cyc} {order : CoincidentOrder} (h : CycleFrom s v order t)
    (harmed : cycTmr v = true → s.regs.gateOpen = false) :
    t.regs.gateOpen = ((s.regs.gateOpen || cycTmr v) && !t.armDebounce) := by
  rw [h.regs, h.arm, cycle_gateOpen _ order harmed]

theorem CycleFrom.gate_of_arm {s t : State} {v : Cyc} {order : CoincidentOrder} (h : CycleFrom s v order t)
    (harm : t.armDebounce = true) : (s.regs.gateOpen || cycTmr v) = true :=
  gate_of_cycle_arm (h.arm.symm.trans harm)

theorem CycleFrom.ledEnable {s t : State} {v : Cyc} {order : CoincidentOrder} (h : CycleFrom s v order t) :
    t.regs.ledEnable = (s.regs.ledEnable ^^ t.armDebounce) := by
  rw [h.regs, h.arm, cycle_ledEnable]

/-- With the gate armed and no expiry, a cycle accepts no press. -/
theorem CycleFrom.quiet {s t : State} {v : Cyc} {order : CoincidentOrder} (h : CycleFrom s v order t)
    (hgate : s.regs.gateOpen = false) (htmr : cycTmr v = false) :
    t.regs.gateOpen = false ∧ t.armDebounce = false ∧ t.regs.ledEnable = s.regs.ledEnable := by
  have harm : t.armDebounce = false := by
    by_contra hpulse
    have := h.gate_of_arm (Bool.eq_true_of_not_eq_false hpulse)
    rw [hgate, htmr] at this
    cases this
  refine ⟨?_, harm, ?_⟩
  · rw [h.gateOpen fun _ => hgate, hgate, htmr, Bool.or_false, Bool.false_and]
  · rw [h.ledEnable, harm, Bool.xor_false]

/-! ### The window of the closed system -/

theorem windowMatchesGate_iff {y : System} :
    windowMatchesGate y = true ↔
      (y.block.regs.gateOpen = true ∧ y.block.armDebounce = false ∧ y.timer.run = false ∧ y.timer.expired = false) ∨
      (y.block.regs.gateOpen = false ∧ y.block.armDebounce = true ∧ y.timer.run = false ∧ y.timer.expired = false) ∨
      (y.block.regs.gateOpen = false ∧ y.block.armDebounce = false ∧ y.timer.run = true ∧ y.timer.expired = false) ∨
      (y.block.regs.gateOpen = false ∧ y.block.armDebounce = false ∧ y.timer.run = false ∧ y.timer.expired = true) := by
  fun_cases windowMatchesGate y <;> simp_all

theorem refTimerTick_arm (ticks : Nat) (t : RefTimer) :
    refTimerTick ticks false true t = { cnt := ticks, run := true, expired := false } := rfl

theorem refTimerTick_last {t : RefTimer} (ticks : Nat) (hrun : t.run = true) (hcnt : t.cnt ≤ 1) :
    refTimerTick ticks false false t = { cnt := t.cnt, run := false, expired := true } := by
  simp [refTimerTick, hrun, hcnt]

theorem refTimerTick_run {t : RefTimer} (ticks : Nat) (hrun : t.run = true) (hcnt : 1 < t.cnt) :
    refTimerTick ticks false false t = { cnt := t.cnt - 1, run := true, expired := false } := by
  simp [refTimerTick, hrun, hcnt]

theorem refTimerTick_rest {t : RefTimer} (ticks : Nat) (hrun : t.run = false) :
    refTimerTick ticks false false t = { cnt := t.cnt, run := false, expired := false } := by
  simp [refTimerTick, hrun]

/-- The next cycle's window, if the timer comes to rest in it: only a press can make the gate armed again. -/
theorem windowMatchesGate_of_rest {z : System} (hgate : z.block.regs.gateOpen = !z.block.armDebounce)
    (hrun : z.timer.run = false) (hexpired : z.timer.expired = false) : windowMatchesGate z = true := by
  rw [windowMatchesGate_iff, hgate, hrun, hexpired]
  cases z.block.armDebounce <;> simp

/-- The next cycle's window, if the timer runs or expires in it. -/
theorem windowMatchesGate_of_busy {z : System} (hgate : z.block.regs.gateOpen = false)
    (harm : z.block.armDebounce = false) (hbusy : z.timer.expired = !z.timer.run) : windowMatchesGate z = true := by
  rw [windowMatchesGate_iff, hgate, harm, hbusy]
  cases z.timer.run <;> simp

/-- Reset opens the gate and brings the timer to rest. -/
theorem windowMatchesGate_of_rst (ticks : Nat) {e : EnvInput} (hrst : e.rst = true) (y : System) :
    ∃ z, systemStep ticks e y = .next z ∧ windowMatchesGate z = true := by
  have hvector : cycRst (cycVector e.rst y.timer.expired e.sigValid e.raw) = true := (cycRst_cycVector ..).trans hrst
  refine ⟨_, systemStep_of_next (step_drivePorts_rst _ hvector), windowMatchesGate_of_rest rfl ?_ ?_⟩ <;>
    rw [hrst] <;> rfl

/-- Settles O56: the four cases of the window, each with what the timer does next. -/
theorem closedSystemWindowMatchesGate : Obligations.ClosedSystemWindowMatchesGate := by
  intro ticks e y hwindow
  cases hrst : e.rst
  case true => exact windowMatchesGate_of_rst ticks hrst y
  case false =>
    obtain ⟨b, order, hcycle, hstep⟩ := systemStep_without_rst ticks hrst y
    refine ⟨_, hstep, ?_⟩
    rcases windowMatchesGate_iff.mp hwindow with ⟨hgate, harm, hrun, hexp⟩ | ⟨hgate, harm, hrun, hexp⟩ |
      ⟨hgate, harm, hrun, hexp⟩ | ⟨hgate, harm, hrun, hexp⟩
    case inl =>
      have hnext : b.regs.gateOpen = !b.armDebounce := by
        rw [hcycle.gateOpen (by simp [hexp])]
        simp [drivePorts, hgate]
      rw [harm, refTimerTick_rest ticks hrun]
      exact windowMatchesGate_of_rest hnext rfl rfl
    case inr.inl =>
      obtain ⟨hgate', harm', -⟩ := hcycle.quiet hgate (by simp [hexp])
      rw [harm, refTimerTick_arm]
      exact windowMatchesGate_of_busy hgate' harm' rfl
    case inr.inr.inl =>
      obtain ⟨hgate', harm', -⟩ := hcycle.quiet hgate (by simp [hexp])
      rw [harm]
      by_cases hcnt : y.timer.cnt ≤ 1
      · rw [refTimerTick_last ticks hrun hcnt]
        exact windowMatchesGate_of_busy hgate' harm' rfl
      · rw [refTimerTick_run ticks hrun (Nat.lt_of_not_le hcnt)]
        exact windowMatchesGate_of_busy hgate' harm' rfl
    case inr.inr.inr =>
      have hnext : b.regs.gateOpen = !b.armDebounce := by
        rw [hcycle.gateOpen fun _ => hgate]
        simp [hexp]
      rw [harm, refTimerTick_rest ticks hrun]
      exact windowMatchesGate_of_rest hnext rfl rfl

/-! ### The display of the closed system -/

theorem displayFollows_iff {y : System} :
    displayFollows y = true ↔ y.block.publish = true ∨ y.disp = none ∨ y.disp = some (ledMask y.block) := by
  simp [displayFollows, or_assoc]

theorem CycleFrom.ledMask_of_no_publish {s t : State} {v : Cyc} {order : CoincidentOrder} (h : CycleFrom s v order t)
    (hquiet : t.publish = false) : ledMask t = ledMask s := by
  have hnone := h.publish.symm.trans hquiet
  rw [List.any_eq_false] at hnone
  rw [ledMask, h.regs]
  exact renderRegs_runEvents_of_no_publish fun f hf => by simpa using hnone f hf

/-- What the latch takes at an edge is the mask shown before it. -/
theorem latchTick_of_follows {y : System} (h : displayFollows y = true) :
    latchTick y.block y.disp = none ∨ latchTick y.block y.disp = some (ledMask y.block) := by
  cases hp : y.block.publish
  case true => exact .inr (by simp [latchTick, hp])
  case false =>
    have hlatch : latchTick y.block y.disp = y.disp := by simp [latchTick, hp]
    rw [hlatch]
    simpa [hp] using displayFollows_iff.mp h

/-- Settles O57: the latch takes the mask of the cycle before, and a cycle without a publish does not change the mask. -/
theorem closedSystemDisplayFollows : Obligations.ClosedSystemDisplayFollows := by
  intro ticks e y hrst hfollows
  obtain ⟨b, order, hcycle, hstep⟩ := systemStep_without_rst ticks hrst y
  refine ⟨_, hstep, displayFollows_iff.mpr ?_⟩
  refine (Bool.eq_false_or_eq_true b.publish).imp id fun hquiet => ?_
  have hmask : ledMask b = ledMask y.block := hcycle.ledMask_of_no_publish hquiet
  rw [hmask]
  exact latchTick_of_follows hfollows

/-! ### The window of the reference timer, counted -/

/-- The gate is armed and the timer runs, with `c` cycles to go until the expiry. -/
structure Waiting (c : Nat) (y : System) : Prop where
  gate : y.block.regs.gateOpen = false
  arm : y.block.armDebounce = false
  timer : y.timer = { cnt := c, run := true, expired := false }

/-- With the gate armed and no expiry the system goes on in the same way whatever is presented. -/
theorem systemStep_armed (ticks : Nat) {e : EnvInput} (hrst : e.rst = false) {y : System}
    (hgate : y.block.regs.gateOpen = false) (hexpired : y.timer.expired = false) :
    ∃ z, systemStep ticks e y = .next z ∧ z.block.regs.gateOpen = false ∧ z.block.armDebounce = false ∧
      z.block.regs.ledEnable = y.block.regs.ledEnable ∧
      z.timer = refTimerTick ticks false y.block.armDebounce y.timer := by
  obtain ⟨b, order, hcycle, hstep⟩ := systemStep_without_rst ticks hrst y
  obtain ⟨hgate', harm', hled'⟩ := hcycle.quiet hgate (by simp [hexpired])
  exact ⟨_, hstep, hgate', harm', hled', rfl⟩

theorem systemRun_cons_of_next {ticks : Nat} {e : EnvInput} {y z : System} (h : systemStep ticks e y = .next z)
    (es : List EnvInput) : systemRun ticks (e :: es) y = systemRun ticks es z := by
  simp only [systemRun, h]

/-- The arm pulse stands only with the gate armed and the timer at rest. -/
theorem armed_of_armDebounce {y : System} (hwindow : windowMatchesGate y = true) (harm : y.block.armDebounce = true) :
    y.block.regs.gateOpen = false ∧ y.timer.expired = false := by
  rw [windowMatchesGate_iff, harm] at hwindow
  obtain ⟨hgate, -, hexpired⟩ : y.block.regs.gateOpen = false ∧ y.timer.run = false ∧ y.timer.expired = false := by
    simpa using hwindow
  exact ⟨hgate, hexpired⟩

/-- The arm pulse starts the count. -/
theorem systemStep_arm (ticks : Nat) {e : EnvInput} (hrst : e.rst = false) {y : System}
    (hwindow : windowMatchesGate y = true) (harm : y.block.armDebounce = true) :
    ∃ z, systemStep ticks e y = .next z ∧ Waiting ticks z ∧ z.block.regs.ledEnable = y.block.regs.ledEnable := by
  obtain ⟨hgate, hexpired⟩ := armed_of_armDebounce hwindow harm
  obtain ⟨z, hstep, hgate', harm', hled, htimer⟩ := systemStep_armed ticks hrst hgate hexpired
  rw [harm, refTimerTick_arm] at htimer
  exact ⟨z, hstep, ⟨hgate', harm', htimer⟩, hled⟩

theorem Waiting.step {c : Nat} {y : System} (hy : Waiting c y) (hc : 1 < c) (ticks : Nat) {e : EnvInput}
    (hrst : e.rst = false) :
    ∃ z, systemStep ticks e y = .next z ∧ Waiting (c - 1) z ∧ z.block.regs.ledEnable = y.block.regs.ledEnable := by
  obtain ⟨z, hstep, hgate, harm, hled, htimer⟩ := systemStep_armed ticks hrst hy.gate (by rw [hy.timer])
  rw [hy.arm, hy.timer, refTimerTick_run ticks rfl hc] at htimer
  exact ⟨z, hstep, ⟨hgate, harm, htimer⟩, hled⟩

theorem Waiting.last_step {y : System} (hy : Waiting 1 y) (ticks : Nat) {e : EnvInput} (hrst : e.rst = false) :
    ∃ z, systemStep ticks e y = .next z ∧ z.block.regs.gateOpen = false ∧ z.timer.expired = true := by
  obtain ⟨z, hstep, hgate, -, -, htimer⟩ := systemStep_armed ticks hrst hy.gate (by rw [hy.timer])
  rw [hy.arm, hy.timer, refTimerTick_last ticks rfl (le_refl 1)] at htimer
  exact ⟨z, hstep, hgate, by rw [htimer]⟩

/-- While the count lasts the system goes on waiting. -/
theorem Waiting.run {c : Nat} {y : System} (hy : Waiting c y) (ticks : Nat) {es : List EnvInput}
    (hrst : ∀ e ∈ es, e.rst = false) (hlength : es.length < c) :
    ∃ z, systemRun ticks es y = .next z ∧ Waiting (c - es.length) z ∧
      z.block.regs.ledEnable = y.block.regs.ledEnable := by
  induction es generalizing c y with
  | nil => exact ⟨y, rfl, hy, rfl⟩
  | cons e es ih =>
    obtain ⟨he, hes⟩ := List.forall_mem_cons.mp hrst
    rw [List.length_cons] at hlength ⊢
    obtain ⟨z, hstep, hz, hled⟩ := hy.step (by omega) ticks he
    obtain ⟨u, hrun, hu, hled'⟩ := ih hz hes (by omega)
    refine ⟨u, (systemRun_cons_of_next hstep es).trans hrun, ?_, hled'.trans hled⟩
    rwa [Nat.sub_sub, Nat.add_comm] at hu

/-- When the count is over the expiry pulse stands, with the gate still armed. -/
theorem Waiting.run_expires {c : Nat} {y : System} (hy : Waiting c y) (hc : 1 ≤ c) (ticks : Nat) {es : List EnvInput}
    (hrst : ∀ e ∈ es, e.rst = false) (hlength : es.length = c) :
    ∃ z, systemRun ticks es y = .next z ∧ z.block.regs.gateOpen = false ∧ z.timer.expired = true := by
  induction es generalizing c y with
  | nil => exact absurd hlength (Nat.ne_of_lt hc)
  | cons e es ih =>
    obtain ⟨he, hes⟩ := List.forall_mem_cons.mp hrst
    rw [List.length_cons] at hlength
    obtain rfl | hmore : c = 1 ∨ 1 < c := by omega
    · obtain rfl : es = [] := List.eq_nil_of_length_eq_zero (by omega)
      obtain ⟨z, hstep, hz⟩ := hy.last_step ticks he
      exact ⟨z, systemRun_cons_of_next hstep [], hz⟩
    · obtain ⟨z, hstep, hz, -⟩ := hy.step hmore ticks he
      rw [systemRun_cons_of_next hstep]
      exact ih hz (by omega) hes (by omega)

/-- The cycle of the expiry, with no encoder event in it, opens the gate and does nothing else to the registers. -/
theorem systemStep_expiry (ticks : Nat) {y : System} (hexpired : y.timer.expired = true) (raw : Raw) :
    ∃ z, systemStep ticks { rst := false, sigValid := false, raw := raw } y = .next z ∧
      z.block.regs = { y.block.regs with gateOpen := true } := by
  obtain ⟨b, order, hcycle, hstep⟩ :=
    systemStep_without_rst ticks (e := { rst := false, sigValid := false, raw := raw }) rfl y
  refine ⟨_, hstep, ?_⟩
  have hregs := hcycle.regs
  rwa [handlersOf_of_tmr ((cycTmr_cycleVector ..).trans hexpired) (cycSig_cycleVector ..)] at hregs

/-- Settles O58: the cycle of the arm pulse starts the count, which the others run down. -/
theorem referenceTimerWindow : Obligations.ReferenceTimerWindow := by
  intro ticks y es hticks hwindow harm hrst
  cases es with
  | nil =>
    obtain ⟨hgate, hexpired⟩ := armed_of_armDebounce hwindow harm
    exact ⟨fun _ => ⟨y, rfl, hgate, hexpired, rfl⟩, fun hlength => nomatch hlength⟩
  | cons e es =>
    obtain ⟨he, hes⟩ := List.forall_mem_cons.mp hrst
    obtain ⟨z, hstep, hz, hled⟩ := systemStep_arm ticks he hwindow harm
    rw [systemRun_cons_of_next hstep]
    refine ⟨fun hlength => ?window, fun hlength => ?expiry⟩
    case window =>
      obtain ⟨u, hrun, hu, hled'⟩ := hz.run ticks hes hlength
      exact ⟨u, hrun, hu.gate, by rw [hu.timer], hled'.trans hled⟩
    case expiry =>
      obtain ⟨u, hrun, hgate, hexpired⟩ := hz.run_expires hticks ticks hes (Nat.succ.inj hlength)
      refine ⟨u, hrun, hgate, hexpired, fun raw => ?_⟩
      obtain ⟨w, hlast, hregs⟩ := systemStep_expiry ticks hexpired raw
      exact ⟨w, hlast, by rw [hregs], hregs⟩

/-! ### The block beside a free timer -/

theorem windowAfter_armPulse (w : Bool) (s : State) : windowAfter w (armPulse s) = (w || s.armDebounce) := by
  cases h : s.armDebounce <;> simp [armPulse, h]

theorem timerOneShot_armPulse {w : Bool} {s : State} (h : s.armDebounce = true → w = false) :
    timerOneShot w (armPulse s) = true := by
  cases harm : s.armDebounce
  case false => simp [armPulse, harm, timerOneShot]
  case true => simp [armPulse, harm, timerOneShot, h harm]

/-- The expiry pulse of a cycle. -/
def expiryPulse (tmr : Bool) : List Pulse := if tmr then [.expiry] else []

theorem windowAfter_expiryPulse (w tmr : Bool) : windowAfter w (expiryPulse tmr) = (w && !tmr) := by
  cases tmr <;> simp [expiryPulse]

theorem timerOneShot_expiryPulse (w tmr : Bool) :
    timerOneShot w (expiryPulse tmr) = expiriesAnswerArms w (expiryPulse tmr) := by
  cases tmr <;> rfl

theorem window_of_expiryPulse {w tmr : Bool} (h : expiriesAnswerArms w (expiryPulse tmr) = true) (htmr : tmr = true) :
    w = true := by
  subst htmr
  simpa [expiryPulse, expiriesAnswerArms] using h

/-- The words to come are cycles without reset. -/
def OnlyCycles (s : State) : Prop := ∀ i ∈ s.inputs, ∃ v : Cyc, i = .cyc v ∧ v.getLsbD 34 = false

theorem OnlyCycles.presented {s : State} (h : OnlyCycles s) : ∃ v, presented s = .cyc v ∧ cycRst v = false := by
  cases hs : s.inputs with
  | nil => exact ⟨0#35, by simp [Machine.presented, hs], rfl⟩
  | cons i rest =>
    obtain ⟨v, rfl, hv⟩ := h i (by simp [hs])
    exact ⟨v, presented_cons hs, hv⟩

/-- Before a cycle: the gate is armed exactly if a window runs or the arm pulse stands, and not both do. -/
structure GateShowsWindow (w : Bool) (s : State) : Prop where
  gate : s.regs.gateOpen = !(w || s.armDebounce)
  arm : s.armDebounce = true → w = false

/-- One cycle in which an expiry comes only while a window runs, after the arm pulse has counted. -/
theorem GateShowsWindow.cycle {w : Bool} {s t : State} {v : Cyc} {order : CoincidentOrder} (hs : GateShowsWindow w s)
    (hcycle : CycleFrom s v order t) (hexpiry : cycTmr v = true → (w || s.armDebounce) = true) :
    GateShowsWindow ((w || s.armDebounce) && !cycTmr v) t := by
  have hopened : (s.regs.gateOpen || cycTmr v) = !((w || s.armDebounce) && !cycTmr v) := by
    rw [hs.gate, Bool.not_and, Bool.not_not]
  refine ⟨?_, fun harm => ?_⟩
  · rw [hcycle.gateOpen fun htmr => by rw [hs.gate, hexpiry htmr, Bool.not_true], hopened, Bool.not_or]
  · have hopen := hcycle.gate_of_arm harm
    rwa [hopened, Bool.not_eq_true'] at hopen

/-- The pulses alternate, and the gate of the state that the run ends in is armed exactly while a window runs after them. -/
theorem portPulses_alternate (n : Nat) {s : State} {w : Bool} (hinputs : OnlyCycles s) (hs : GateShowsWindow w s)
    (hexpiries : expiriesAnswerArms w (portPulses n s) = true) :
    timerOneShot w (portPulses n s) = true ∧
      ∃ t, core.run n s = .next t ∧ t.regs.gateOpen = !windowAfter w (portPulses n s) := by
  induction n generalizing s w with
  | zero => exact ⟨timerOneShot_armPulse hs.arm, s, rfl, by rw [portPulses_zero, windowAfter_armPulse, hs.gate]⟩
  | succ n ih =>
    obtain ⟨v, hv, hrst⟩ := hinputs.presented
    obtain ⟨t, order, hstep, hcycle⟩ := step_cycle hv hrst
    have hpulses : portPulses (n + 1) s = armPulse s ++ expiryPulse (cycTmr v) ++ portPulses n t := by
      rw [portPulses_succ_of_next hstep, expiryPresented, hv]
      rfl
    simp only [hpulses, expiriesAnswerArms_append, windowAfter_append, windowAfter_armPulse, windowAfter_expiryPulse,
      Bool.and_eq_true] at hexpiries
    obtain ⟨⟨-, hexpiry⟩, hrest⟩ := hexpiries
    have htail : OnlyCycles t := fun i hi => hinputs i (List.mem_of_mem_tail (hcycle.inputs ▸ hi))
    obtain ⟨hshot, u, hrun, hgate⟩ := ih htail (hs.cycle hcycle (window_of_expiryPulse hexpiry)) hrest
    simp only [hpulses, timerOneShot_append, windowAfter_append, windowAfter_armPulse, windowAfter_expiryPulse,
      timerOneShot_expiryPulse, Bool.and_eq_true]
    exact ⟨⟨⟨timerOneShot_armPulse hs.arm, hexpiry⟩, hshot⟩, u, (core_run_succ_of_next hstep n).trans hrun, hgate⟩

/-- Settles O59: an induction on the cycles; an expiry with no window running and no arm pulse is the first pulse of all. -/
theorem blockKeepsTimerOneShotAtPorts : Obligations.BlockKeepsTimerOneShotAtPorts := by
  refine ⟨fun n s w hinputs hgate harm => portPulses_alternate n hinputs ⟨hgate, harm⟩, fun n s harm htmr => ?_⟩
  simp [portPulses, armPulse, harm, htmr, expiriesAnswerArms]

end Sys2Proof.Machine
end

section
/-!
Sequences of samples (40_quadrature_decoder.md R81 to R86). `QD_STEP` settles in one step on a sample, so repeats are no-ops; a
state other than `Idle` is entered by one sample and only from states of its own path, so what led to it since the decoder left
`Idle` begins and ends as its path does. The facts about single cells are the table of 28 cells, read state by state.
-/

namespace Sys2Proof.Machine

/-! ### The cells -/

theorem qdStep_settles (q : EncState) (x : Phase) : qdStep (qdStep q x).1 x = ((qdStep q x).1, none) := by
  cases q <;> revert x <;> decide

theorem qdStep_emits_clockwise_iff (q : EncState) (x : Phase) :
    (qdStep q x).2 = some .clockwise ↔ q = .cwHalf3 ∧ x = 0b11#2 := by
  cases q <;> revert x <;> decide

theorem qdStep_emits_counterClockwise_iff (q : EncState) (x : Phase) :
    (qdStep q x).2 = some .counterClockwise ↔ q = .ccwHalf3 ∧ x = 0b11#2 := by
  cases q <;> revert x <;> decide

theorem qdStep_idle_of_emits {q : EncState} {x : Phase} (h : (qdStep q x).2 ≠ none) : (qdStep q x).1 = .idle := by
  revert h
  cases q <;> revert x <;> decide

/-- The cells that enter a state of one of the paths from another state (40_quadrature_decoder.md R75). -/
def entries : EncState → List (EncState × Phase)
  | .idle => []
  | .cwHalf1 => [(.idle, 0b01#2), (.cwHalf2, 0b01#2)]
  | .cwHalf2 => [(.cwHalf1, 0b00#2), (.cwHalf3, 0b00#2)]
  | .cwHalf3 => [(.cwHalf2, 0b10#2)]
  | .ccwHalf1 => [(.idle, 0b10#2), (.ccwHalf2, 0b10#2)]
  | .ccwHalf2 => [(.ccwHalf1, 0b00#2), (.ccwHalf3, 0b00#2)]
  | .ccwHalf3 => [(.ccwHalf2, 0b01#2)]

theorem mem_entries_of_qdStep {q : EncState} {x : Phase} (hidle : (qdStep q x).1 ≠ .idle) (hmoves : (qdStep q x).1 ≠ q) :
    (q, x) ∈ entries (qdStep q x).1 := by
  revert hidle hmoves
  cases q <;> revert x <;> decide

theorem qdStep_keeps_isCw {q : EncState} {x : Phase} (hidle : (qdStep q x).1 ≠ .idle) (h : isCw q = true) :
    isCw (qdStep q x).1 = true := by
  revert hidle h
  cases q <;> revert x <;> decide

theorem qdStep_keeps_isCcw {q : EncState} {x : Phase} (hidle : (qdStep q x).1 ≠ .idle) (h : isCcw q = true) :
    isCcw (qdStep q x).1 = true := by
  revert hidle h
  cases q <;> revert x <;> decide

/-! ### Runs -/

theorem qdRun_cons (q : EncState) (x : Phase) (xs : List Phase) :
    qdRun q (x :: xs) =
      ((qdRun (qdStep q x).1 xs).1, (qdStep q x).2.toList ++ (qdRun (qdStep q x).1 xs).2) := rfl

theorem qdChanging_append (q : EncState) (xs ys : List Phase) :
    qdChanging q (xs ++ ys) = qdChanging q xs ++ qdChanging (qdRun q xs).1 ys := by
  induction xs generalizing q with
  | nil => rfl
  | cons x xs ih => simp [qdChanging, qdRun_cons, ih]

/-- A sample presented twice is as one (40_quadrature_decoder.md R82). -/
theorem qdRun_repeated (q : EncState) (x : Phase) (xs : List Phase) : qdRun q (x :: x :: xs) = qdRun q (x :: xs) := by
  simp [qdRun_cons, qdStep_settles]

theorem qdRun_destutter' (q : EncState) (x : Phase) (xs : List Phase) :
    qdRun q (xs.destutter' (· ≠ ·) x) = qdRun q (x :: xs) := by
  induction xs generalizing q x with
  | nil => rfl
  | cons y xs ih =>
    by_cases h : x = y
    · subst h
      rw [List.destutter'_cons_neg _ (not_not_intro rfl), ih, qdRun_repeated]
    · rw [List.destutter'_cons_pos _ h, qdRun_cons, ih, ← qdRun_cons]

/-- Settles O34: the second sample of a pair of repeats is dropped. -/
theorem repeatedSamplesAreNoOps : Obligations.RepeatedSamplesAreNoOps := by
  refine ⟨qdStep_settles, fun q xs => ?_⟩
  cases xs with
  | nil => rfl
  | cons x xs => exact qdRun_destutter' q x xs

/-! ### Runs away from `Idle` -/

/-- No sample of the sequence leads to `Idle`. -/
def AvoidsIdle (q : EncState) (xs : List Phase) : Prop := ∀ ys, ys ≠ [] → ys <+: xs → (qdRun q ys).1 ≠ .idle

theorem AvoidsIdle.head {q : EncState} {x : Phase} {xs : List Phase} (h : AvoidsIdle q (x :: xs)) :
    (qdStep q x).1 ≠ .idle :=
  h [x] (List.cons_ne_nil x []) (List.prefix_append [x] xs)

theorem AvoidsIdle.tail {q : EncState} {x : Phase} {xs : List Phase} (h : AvoidsIdle q (x :: xs)) :
    AvoidsIdle (qdStep q x).1 xs :=
  fun ys _ hys => h (x :: ys) (List.cons_ne_nil x ys) (List.cons_prefix_cons.mpr ⟨rfl, hys⟩)

/-- What every step away from `Idle` keeps holds after a run that avoids `Idle`. -/
theorem AvoidsIdle.run_keeps {P : EncState → Prop}
    (hstep : ∀ {q x}, (qdStep q x).1 ≠ .idle → P q → P (qdStep q x).1) {q : EncState} {xs : List Phase}
    (hxs : AvoidsIdle q xs) (hq : P q) : P (qdRun q xs).1 := by
  induction xs generalizing q with
  | nil => exact hq
  | cons x xs ih => exact ih hxs.tail (hstep hxs.head hq)

/-- Settles O36: a sequence to each state, the cells that lead back, and the two paths kept by every step that does not go
to `Idle`. -/
theorem pathsJoinOnlyThroughIdle : Obligations.PathsJoinOnlyThroughIdle := by
  refine ⟨fun q => ?reached, fun q hq => ?back, rfl, rfl, rfl, rfl, fun q xs hxs => ?paths⟩
  case reached =>
    cases q
    case idle => exact ⟨[], rfl⟩
    case cwHalf1 => exact ⟨[0b01#2], rfl⟩
    case cwHalf2 => exact ⟨[0b01#2, 0b00#2], rfl⟩
    case cwHalf3 => exact ⟨[0b01#2, 0b00#2, 0b10#2], rfl⟩
    case ccwHalf1 => exact ⟨[0b10#2], rfl⟩
    case ccwHalf2 => exact ⟨[0b10#2, 0b00#2], rfl⟩
    case ccwHalf3 => exact ⟨[0b10#2, 0b00#2, 0b01#2], rfl⟩
  case back => rcases hq with rfl | rfl | rfl | rfl <;> rfl
  case paths =>
    have havoids : AvoidsIdle q xs := fun ys _ hys => hxs ys hys
    exact ⟨havoids.run_keeps (P := fun q => isCw q = true) qdStep_keeps_isCw,
      havoids.run_keeps (P := fun q => isCcw q = true) qdStep_keeps_isCcw⟩

/-! ### The path since `Idle` -/

/-- The samples begin with the first two of the path whose first sample is `first`. -/
def Opens (first : Phase) (p : List Phase) : Prop := ∃ rest, p = first :: 0b00#2 :: rest

theorem Opens.append {first : Phase} {p : List Phase} (h : Opens first p) (xs : List Phase) : Opens first (p ++ xs) := by
  obtain ⟨rest, rfl⟩ := h
  exact ⟨rest ++ xs, rfl⟩

/-- The samples are the first of the path, or begin with its first two. -/
def Starts (first : Phase) (p : List Phase) : Prop := p = [first] ∨ Opens first p

/-- The samples begin with the first two of the path and end with its third. -/
def Completes (first third : Phase) (p : List Phase) : Prop := ∃ p', Opens first p' ∧ p = p' ++ [third]

theorem Starts.opens {first : Phase} {p : List Phase} (h : Starts first p) : Opens first (p ++ [0b00#2]) := by
  rcases h with rfl | h
  · exact ⟨[], rfl⟩
  · exact h.append _

theorem Completes.opens {first third : Phase} {p : List Phase} (h : Completes first third p) (xs : List Phase) :
    Opens first (p ++ xs) := by
  obtain ⟨p', hp', rfl⟩ := h
  exact (hp'.append _).append _

/-- What the state-changing samples since `Idle` are, for each state they lead to. -/
def PathTo : EncState → List Phase → Prop
  | .idle, p => p = []
  | .cwHalf1, p => Starts 0b01#2 p
  | .cwHalf2, p => Opens 0b01#2 p
  | .cwHalf3, p => Completes 0b01#2 0b10#2 p
  | .ccwHalf1, p => Starts 0b10#2 p
  | .ccwHalf2, p => Opens 0b10#2 p
  | .ccwHalf3, p => Completes 0b10#2 0b01#2 p

theorem pathTo_of_mem_entries {q q' : EncState} {x : Phase} {p : List Phase} (hx : (q, x) ∈ entries q') (hp : PathTo q p) :
    PathTo q' (p ++ [x]) := by
  cases q' <;> simp only [entries, List.mem_cons, List.not_mem_nil, or_false, Prod.mk.injEq] at hx
  case cwHalf1 | ccwHalf1 =>
    rcases hx with ⟨rfl, rfl⟩ | ⟨rfl, rfl⟩
    · exact .inl (congrArg (· ++ _) hp)
    · exact .inr (Opens.append hp _)
  case cwHalf2 | ccwHalf2 =>
    rcases hx with ⟨rfl, rfl⟩ | ⟨rfl, rfl⟩
    · exact Starts.opens hp
    · exact Completes.opens hp _
  case cwHalf3 | ccwHalf3 =>
    obtain ⟨rfl, rfl⟩ := hx
    exact ⟨p, hp, rfl⟩

theorem AvoidsIdle.pathTo {q : EncState} {xs p : List Phase} (hxs : AvoidsIdle q xs) (hp : PathTo q p) :
    PathTo (qdRun q xs).1 (p ++ qdChanging q xs) := by
  induction xs generalizing q p with
  | nil => rwa [qdChanging, List.append_nil]
  | cons x xs ih =>
    rw [qdRun_cons, qdChanging, ← List.append_assoc]
    refine ih hxs.tail ?_
    split
    case isTrue hstays => rwa [hstays, List.append_nil]
    case isFalse hmoves => exact pathTo_of_mem_entries (mem_entries_of_qdStep hxs.head hmoves) hp

/-- A sequence that avoids `Idle` and then changes the state once more. -/
theorem qdChanging_of_completes {first third : Phase} {xs : List Phase} (h : Completes first third (qdChanging .idle xs))
    {x : Phase} (hx : qdChanging (qdRun .idle xs).1 [x] = [x]) :
    ∃ mid, qdChanging .idle (xs ++ [x]) = first :: 0b00#2 :: mid ++ [third, x] := by
  obtain ⟨p, ⟨mid, rfl⟩, hxs⟩ := h
  exact ⟨mid, by simp [qdChanging_append, hxs, hx]⟩

/-- Settles O35: an emission is from the third state of a path, and the samples that led there complete the path. -/
theorem emissionNeedsTheFullPath : Obligations.EmissionNeedsTheFullPath := by
  refine ⟨qdStep_emits_clockwise_iff, qdStep_emits_counterClockwise_iff, fun _ _ => qdStep_idle_of_emits, fun xs hxs => ?_⟩
  have hpath : PathTo (qdRun .idle xs).1 (qdChanging .idle xs) := AvoidsIdle.pathTo (p := []) hxs rfl
  refine ⟨fun hemits => ?clockwise, fun hemits => ?counterClockwise⟩
  case clockwise =>
    obtain ⟨hq, -⟩ := (qdStep_emits_clockwise_iff _ _).mp hemits
    rw [hq] at hpath
    exact qdChanging_of_completes hpath (by rw [hq]; rfl)
  case counterClockwise =>
    obtain ⟨hq, -⟩ := (qdStep_emits_counterClockwise_iff _ _).mp hemits
    rw [hq] at hpath
    exact qdChanging_of_completes hpath (by rw [hq]; rfl)

/-- Settles O37: the six runs, evaluated. -/
theorem cleanCycles : Obligations.CleanCycles := by
  unfold Obligations.CleanCycles
  decide

/-! ### A circuit that stores the code -/

theorem encOfCode_encCode (q : EncState) : encOfCode? (encCode q) = some q := by
  cases q <;> rfl

theorem encCode_ne_reserved (q : EncState) : encCode q ≠ 0b111#3 := by
  cases q <;> decide

theorem dirCode_ne_reserved (d : Option Direction) : dirCode d ≠ 0b11#2 := by
  rcases d with _ | (_ | _) <;> decide

/-- Settles O42: what the circuit stores and returns is always the code of a state and of a direction, and 111 stands for
no state, so that it is read as `Idle`. -/
theorem circuitDecoderRefines : Obligations.CircuitDecoderRefines := by
  refine ⟨encOfCode_encCode, fun q x => ?_, fun _ => rfl, fun c x => ⟨encCode_ne_reserved _, dirCode_ne_reserved _⟩⟩
  rw [circuitStep, encOfCode_encCode]
  rfl

end Sys2Proof.Machine
end

section
/-!
The write matrix (10_state.md R34): what an instruction may do to the four registers, said once over all 21 instructions, and
read off it for each register (R21 to R24). With it what one encoder-signal event writes and calls.
-/

namespace Sys2Proof.Machine

/-! ### One encoder-signal event -/

/-- An event is an accepted press, or it takes the decoder's step and perhaps a move of a ring that is on. -/
theorem onSignalWith_regs_cases (pnm : Bool) (r : Regs) (raw : Raw) :
    (raw.getLsbD 2 = true ∧ (onSignalWith pnm r raw).1 = { r with gateOpen := false, ledEnable := !r.ledEnable }) ∨
    ∃ q p, (onSignalWith pnm r raw).1 = { r with encState := q, ledNum := p } ∧ (p ≠ r.ledNum → r.ledEnable = true) := by
  cases h : button raw && r.gateOpen
  case true =>
    obtain ⟨hdown, -⟩ := Bool.and_eq_true_iff.mp h
    exact .inl ⟨hdown, by rw [onSignalWith_accepted h]⟩
  case false =>
    obtain ⟨p, hregs, hmoved, -⟩ := phaseBranch_spec pnm r (phase raw)
    exact .inr ⟨_, p, by rw [onSignalWith_ignored h, hregs], fun hne => (hmoved hne).1⟩

/-- Settles O45: an accepted press drops the phase; any other event is its phase branch. -/
theorem oneEventOneBranch : Obligations.OneEventOneBranch := by
  intro pnm r raw
  rcases onSignalWith_regs_cases pnm r raw with ⟨-, hregs⟩ | ⟨q, p, hregs, -⟩ <;> rw [hregs]
  · exact .inl ⟨rfl, rfl⟩
  · exact .inr ⟨rfl, rfl⟩

/-- Settles O22: both calls come from the accepted press. -/
theorem armBeforePublish : Obligations.ArmBeforePublish := by
  intro r raw hdown hopen
  have haccepted : (button raw && r.gateOpen) = true := Bool.and_eq_true_iff.mpr ⟨hdown, hopen⟩
  rw [onSignal, onSignalWith_accepted haccepted]
  rfl

/-! ### The write matrix -/

/-- What an instruction may make of the registers `r`. -/
inductive Writes (r : Regs) : Instr → Regs → Prop
  | reset : Writes r .rst Regs.reset
  | keep (i : Instr) : Writes r i r
  /-- The timer's half of an event, alone. -/
  | reopen {i : Instr} : i = .tmr ∨ i = .bgReopen → Writes r i { r with gateOpen := true }
  /-- An accepted press; the gate is open after it only if the timer's half of a coincidence came after it. -/
  | press {i : Instr} {raw : Raw} (g : Bool) : i.raw? = some raw → raw.getLsbD 2 = true →
      (g = true → i = .sigTmr raw) → Writes r i { r with gateOpen := g, ledEnable := !r.ledEnable }
  /-- The phase branch; the gate is written only by the timer's half of a coincidence. -/
  | sample {i : Instr} {raw : Raw} (q : EncState) (p : Pos) (g : Bool) : i.raw? = some raw →
      (p ≠ r.ledNum → r.ledEnable = true) → (g = r.gateOpen ∨ g = true ∧ i = .sigTmr raw) →
      Writes r i { r with encState := q, ledNum := p, gateOpen := g }
  | decode {i : Instr} (q : EncState) : i = .qdStep00 ∨ i = .qdStep01 ∨ i = .qdStep10 ∨ i = .qdStep11 →
      Writes r i { r with encState := q }
  | accept : Writes r (.bgTryAccept true) { r with gateOpen := false }
  | move {i : Instr} (p : Pos) : r.ledEnable = true → i = .lrMover ∨ i = .lrMovel → Writes r i { r with ledNum := p }
  | switch {i : Instr} (b : Bool) : i = .lrEnable ∨ i = .lrDisable ∨ i = .lrToggle →
      Writes r i { r with ledEnable := b }

theorem writes_onSignal {i : Instr} {raw : Raw} (hi : i.raw? = some raw) (r : Regs) :
    Writes r i (onSignal r raw).1 := by
  rcases onSignalWith_regs_cases Config.publishOnNoopMove r raw with ⟨hdown, hregs⟩ | ⟨q, p, hregs, hmoved⟩ <;>
    rw [onSignal, hregs]
  · exact .press false hi hdown (fun h => nomatch h)
  · exact .sample q p r.gateOpen hi hmoved (.inl rfl)

theorem writes_onBoth (order : CoincidentOrder) (raw : Raw) (r : Regs) :
    Writes r (.sigTmr raw) (onBoth order r raw).1 := by
  cases order
  case sigFirst =>
    rw [onBoth, onBothWith_sigFirst]
    rcases onSignalWith_regs_cases Config.publishOnNoopMove r raw with ⟨hdown, hregs⟩ | ⟨q, p, hregs, hmoved⟩ <;>
      rw [hregs]
    · exact .press true rfl hdown (fun _ => rfl)
    · exact .sample q p true rfl hmoved (.inr ⟨rfl, rfl⟩)
  case tmrFirst =>
    rw [onBoth, onBothWith_tmrFirst]
    rcases onSignalWith_regs_cases Config.publishOnNoopMove { r with gateOpen := true } raw with
      ⟨hdown, hregs⟩ | ⟨q, p, hregs, hmoved⟩ <;> rw [hregs]
    · exact .press false rfl hdown (fun h => nomatch h)
    · exact .sample q p true rfl hmoved (.inr ⟨rfl, rfl⟩)

theorem writes_bgTryAccept (p : Bool) (r : Regs) : Writes r (.bgTryAccept p) (bgTryAccept r p).1 := by
  cases h : p && r.gateOpen
  case false =>
    rw [bgTryAccept_ignored h]
    exact .keep _
  case true =>
    obtain ⟨rfl, -⟩ := Bool.and_eq_true_iff.mp h
    rw [bgTryAccept_accepted h]
    exact .accept

theorem writes_move {i : Instr} (hi : i = .lrMover ∨ i = .lrMovel) (r : Regs) (p : Pos) :
    Writes r i { r with ledNum := if r.ledEnable then p else r.ledNum } := by
  split
  case isTrue hon => exact .move p hon hi
  case isFalse => exact .keep i

/-- The whole matrix. -/
theorem exec_writes {i : Instr} {s t : State} (h : exec i s = .next t) : Writes s.regs i t.regs := by
  cases i with
  | rst =>
    cases h
    exact .reset
  | nop | lrRender =>
    cases h
    exact .keep _
  | tmr | bgReopen =>
    cases h
    exact .reopen (by simp)
  | sigP00 raw | sigP01 raw | sigP10 raw | sigP11 raw | sigBtn raw =>
    cases h
    exact writes_onSignal rfl s.regs
  | sigTmr raw =>
    cases h
    exact writes_onBoth _ raw s.regs
  | qdStep00 | qdStep01 | qdStep10 | qdStep11 =>
    cases h
    exact .decode _ (by simp)
  | bgTryAccept p =>
    cases h
    exact writes_bgTryAccept p s.regs
  | lrMover =>
    cases h
    rw [returnFrom_regs, lrMover_eq]
    exact writes_move (.inl rfl) s.regs _
  | lrMovel =>
    cases h
    rw [returnFrom_regs, lrMovel_eq]
    exact writes_move (.inr rfl) s.regs _
  | lrEnable | lrDisable | lrToggle =>
    cases h
    exact .switch _ (by simp)

/-! ### The columns of the matrix -/

theorem Writes.encState {r r' : Regs} {i : Instr} (h : Writes r i r') (hne : r'.encState ≠ r.encState) :
    i = .rst ∨ (∃ raw, i.raw? = some raw) ∨ i = .qdStep00 ∨ i = .qdStep01 ∨ i = .qdStep10 ∨ i = .qdStep11 := by
  cases h with
  | reset => exact .inl rfl
  | sample _ _ _ hraw => exact .inr (.inl ⟨_, hraw⟩)
  | decode _ hi => exact .inr (.inr hi)
  | _ => exact absurd rfl hne

theorem Writes.closes {r r' : Regs} {i : Instr} (h : Writes r i r') (hopen : r.gateOpen = true)
    (harmed : r'.gateOpen = false) : i = .bgTryAccept true ∨ ∃ raw, i.raw? = some raw ∧ raw.getLsbD 2 = true := by
  cases h with
  | accept => exact .inl rfl
  | press _ hraw hdown => exact .inr ⟨_, hraw, hdown⟩
  | sample _ _ _ _ _ hg =>
    rcases hg with rfl | ⟨rfl, -⟩
    · cases hopen.symm.trans harmed
    · cases harmed
  | reset | reopen => cases harmed
  | keep | decode | move | switch => cases hopen.symm.trans harmed

theorem Writes.opens {r r' : Regs} {i : Instr} (h : Writes r i r') (harmed : r.gateOpen = false)
    (hopen : r'.gateOpen = true) : i = .rst ∨ i = .tmr ∨ i = .bgReopen ∨ ∃ raw, i = .sigTmr raw := by
  cases h with
  | reset => exact .inl rfl
  | reopen hi => exact .inr (hi.imp id .inl)
  | press _ _ _ hg => exact .inr (.inr (.inr ⟨_, hg hopen⟩))
  | sample q p g _ _ hg =>
    rcases hg with rfl | ⟨-, hi⟩
    · cases harmed.symm.trans hopen
    · exact .inr (.inr (.inr ⟨_, hi⟩))
  | accept => cases hopen
  | keep | decode | move | switch => cases harmed.symm.trans hopen

theorem Writes.ledNum {r r' : Regs} {i : Instr} (h : Writes r i r') (hne : r'.ledNum ≠ r.ledNum) :
    i = .rst ∨ (r.ledEnable = true ∧ (i = .lrMover ∨ i = .lrMovel ∨ ∃ raw, i.raw? = some raw)) := by
  cases h with
  | reset => exact .inl rfl
  | sample _ _ _ hraw hmoved => exact .inr ⟨hmoved hne, .inr (.inr ⟨_, hraw⟩)⟩
  | move _ hon hi => exact .inr ⟨hon, hi.imp id .inl⟩
  | _ => exact absurd rfl hne

theorem Writes.ledEnable {r r' : Regs} {i : Instr} (h : Writes r i r') (hne : r'.ledEnable ≠ r.ledEnable) :
    i = .rst ∨ i = .lrEnable ∨ i = .lrDisable ∨ i = .lrToggle ∨ ∃ raw, i.raw? = some raw ∧ raw.getLsbD 2 = true := by
  cases h with
  | reset => exact .inl rfl
  | press _ hraw hdown => exact .inr (.inr (.inr (.inr ⟨_, hraw, hdown⟩)))
  | switch _ hi => exact .inr (hi.imp id (.imp id .inl))
  | _ => exact absurd rfl hne

/-- Settles O47: the columns of the write matrix. -/
theorem registerWriters : Obligations.RegisterWriters := by
  intro i s t hexec
  have h : Writes s.regs i t.regs := exec_writes hexec
  exact ⟨h.encState, h.closes, h.opens, h.ledNum, h.ledEnable⟩

end Sys2Proof.Machine
end

section
/-!
Moves of the ring made one after another (42_led_ring.md R107): with the ring on they add to the position, modulo 16.
-/

namespace Sys2Proof.Machine

theorem lrMovel_lrMover {r : Regs} (hon : r.ledEnable = true) : (lrMovel (lrMover r).1).1 = r := by
  rw [lrMover_on hon, lrMovel_on (r := { r with ledNum := r.ledNum - 1#4 }) hon, BitVec.sub_add_cancel]

theorem lrMover_lrMovel {r : Regs} (hon : r.ledEnable = true) : (lrMover (lrMovel r).1).1 = r := by
  rw [lrMovel_on hon, lrMover_on (r := { r with ledNum := r.ledNum + 1#4 }) hon, BitVec.add_sub_cancel]

/-- A move by `d`, made any number of times while the ring is on. -/
theorem iterate_move {move : Regs → Regs × Bool} {d : Pos}
    (hmove : ∀ {r : Regs}, r.ledEnable = true → move r = ({ r with ledNum := r.ledNum + d }, true)) {r : Regs}
    (hon : r.ledEnable = true) (k : Nat) :
    (fun x => (move x).1)^[k] r = { r with ledNum := r.ledNum + BitVec.ofNat 4 k * d } := by
  induction k with
  | zero => simp
  | succ k ih =>
    have hlast := hmove (r := { r with ledNum := r.ledNum + BitVec.ofNat 4 k * d }) hon
    rw [Function.iterate_succ_apply', ih, hlast, BitVec.ofNat_add, BitVec.add_mul, BitVec.one_mul, BitVec.add_assoc]

/-- Sixteen moves go round the ring once. -/
theorem iterate_move_sixteen {move : Regs → Regs × Bool} {d : Pos}
    (hmove : ∀ {r : Regs}, r.ledEnable = true → move r = ({ r with ledNum := r.ledNum + d }, true)) {r : Regs}
    (hon : r.ledEnable = true) : (fun x => (move x).1)^[16] r = r := by
  have hround : BitVec.ofNat 4 16 * d = 0#4 := BitVec.zero_mul
  rw [iterate_move hmove hon, hround, BitVec.add_zero]

/-- Settles O40: one down and one up cancel, and so do sixteen steps of one kind, modulo 16. -/
theorem movesAreInverse : Obligations.MovesAreInverse :=
  fun _ hon =>
    ⟨lrMovel_lrMover hon, lrMover_lrMovel hon,
      iterate_move_sixteen (d := -1#4) (fun h => by rw [lrMover_on h, BitVec.sub_eq_add_neg]) hon,
      iterate_move_sixteen lrMovel_on hon⟩

end Sys2Proof.Machine
end

section
/-!
The step around `exec`, the operations run on their own, and single values: a few words of the tables and the reset state.
-/

namespace Sys2Proof.Machine

/-- Settles O7: a step decodes the word presented, takes it off the inputs and runs the instruction. -/
theorem stepRunsDecodedInstruction : Obligations.StepRunsDecodedInstruction := by
  intro s inp rest i hs hdecode
  rw [← presented_cons hs] at hdecode
  rw [step_of_decode hdecode, consume_cons hs]

/-- Settles O8: the word read in place of a missing one is the vector of a `NOP`, and there is none to take off. -/
theorem nothingPresentedIsNop : Obligations.NothingPresentedIsNop := by
  intro s hs
  have hdecode : decode (presented s) = .ok .nop := by
    rw [presented, hs]
    rfl
  have hconsume : consume s = s := by
    rw [consume, hs, List.tail_nil, ← hs]
  rw [step_of_decode hdecode, hconsume]

/-- Settles O33: every operation ends in `returnFrom`, which sets the registers and the result alone. -/
theorem operationsKeepTheOutputs : Obligations.OperationsKeepTheOutputs := by
  intro s p i hi
  cases i with
  | rst | nop | tmr | sigP00 | sigP01 | sigP10 | sigP11 | sigBtn | sigTmr => simp at hi
  | qdStep00 | qdStep01 | qdStep10 | qdStep11 | bgTryAccept | bgReopen | lrRender | lrMover | lrMovel | lrEnable
  | lrDisable | lrToggle => exact ⟨_, rfl, rfl, rfl, rfl, rfl⟩

/-- Settles O5: the eight words, decoded. -/
theorem specWordsDecode : Obligations.SpecWordsDecode :=
  ⟨rfl, rfl, rfl, rfl, rfl, rfl, rfl, rfl⟩

/-- Settles O10: the registers at reset render to the bit of position 0. -/
theorem resetMask : Obligations.ResetMask :=
  ⟨rfl, fun s => ⟨clockEdge s (Regs.reset, noEffect), rfl, rfl⟩⟩

/-- Settles O11: each invariant, evaluated at the reset state. -/
theorem resetMeetsTheInvariants : Obligations.ResetMeetsTheInvariants :=
  ⟨rfl, fun harm => absurd harm Bool.false_ne_true, rfl, rfl⟩

end Sys2Proof.Machine
end
